-- ==== Sys2Proof/Word.lean ====
section
/-! DEFINITION. The plain types every other file speaks in: lines of 64 bytes, index ranges, fixed-size tables, the messages
of the two ports, and the head that every command record shares (00_scope.md 3.1; 02_the_request_path.md, Tables 2-1, 2-6;
11_memory_formats_signals_and_identification.md 11.3). -/
namespace Sys2Proof

/-- The 64 bytes of a line: byte `i` is bits `8i` to `8i+7`, so a little-endian field is a run of bits (R171). -/
abbrev Line := BitVec 512

/-- The byte mask of a line: bit `i` stands for byte `i` (Table 2-1). -/
abbrev Mask := BitVec 64

/-- Requester tags 0 to 63 (Table 2-1). -/
abbrev ReqTag := Fin 64

/-- Memory tags 0 to 63 (R32). -/
abbrev MemTag := Fin 64

/-- Regions 0 to 15 (R1). -/
abbrev RegionNo := Fin 16

/-- Capture slots 0 to 15 (R46). -/
abbrev SlotNo := Fin 16

/-- Streams 0 to 3 (R60). -/
abbrev StreamNo := Fin 4

/-- A fixed number of like things. -/
structure Table (α : Type) (n : Nat) where
  cells : List α
  size : cells.length = n
deriving DecidableEq, Repr

/-- The entry of a table at an index. -/
def Table.get {α : Type} {n : Nat} (t : Table α n) (i : Fin n) : α :=
  t.cells[i.1]'(by rw [t.size]; exact i.2)

/-- The table with one entry replaced. -/
def Table.set {α : Type} {n : Nat} (t : Table α n) (i : Fin n) (a : α) : Table α n :=
  ⟨t.cells.set i.1 a, by rw [List.length_set, t.size]⟩

/-- The table whose every entry is `a`. -/
def Table.fill {α : Type} (n : Nat) (a : α) : Table α n :=
  ⟨List.replicate n a, List.length_replicate⟩

/-- The table with every entry changed by `f`. -/
def Table.map {α β : Type} {n : Nat} (f : α → β) (t : Table α n) : Table β n :=
  ⟨t.cells.map f, by rw [List.length_map, t.size]⟩

/-- The indices of a table in ascending order. -/
def indices (n : Nat) : List (Fin n) := List.finRange n

/-- What memory says to a request of the part (Table 2-6, direction in). -/
inductive MemAnswer where
  | data (line : Line)
  | done
  | error
deriving DecidableEq, Repr

/-- What the part says to a requester (Table 2-1, direction out). -/
inductive Response where
  | data (line : Line)
  | done
  | retry
  | refused
  | error
deriving DecidableEq, Repr

/-- The bytes common to all command records: tag, the CHAIN flag, and the target byte (11.3). -/
structure CmdHead where
  tag : BitVec 16
  chain : Bool
  target : BitVec 8
deriving DecidableEq, Repr

/-- The detail of a device check (Table 11-1); the codes lie in Operands.lean. -/
inductive CheckDetail where
  | none
  | regionTable
  | pendingTable
  | filter
  | slots
  | engine
  | streamContext (s : StreamNo)
deriving DecidableEq, Repr

end Sys2Proof
end

