-- ==== Sys2Proof/Syntax.lean ====
section
/-! DEFINITION. The commands of the part: one constructor for each row of spec/opcode_table.json, in the table's order, with
the operands the row's event carries. -/
namespace Sys2Proof

/-- An operand of a step that reads entries with check codes: its value, and the structure whose entry fails its code when the
step reads it, if one does (R162, log 10). -/
structure Checked (α : Type) where
  value : α
  failed : Option CheckDetail
  deriving DecidableEq, Repr

/-- What can happen to the part. Line addresses are byte addresses of a line's first byte. -/
inductive Instr where
  /-- REQUESTER_READ (R18): a READ message. -/
  | requesterRead (tag : ReqTag) (line : Nat)
  /-- REQUESTER_WRITE (R18): a WRITE message. -/
  | requesterWrite (tag : ReqTag) (line : Nat) (mask : Mask) (data : Line)
  /-- RING_SETUP (R140): a value of the watched word, handed over. -/
  | ringSetup (value : BitVec 64)
  /-- COMMAND_TAIL (R141): a value, with the admission number of the write that carried it. -/
  | commandTail (value : BitVec 64) (admission : Nat)
  /-- REPORT_SETUP (R154). -/
  | reportSetup (value : BitVec 64)
  /-- REPORT_ACK (R157). -/
  | reportAck (value : BitVec 64)
  /-- FAULT_ACK (R170). -/
  | faultAck (value : BitVec 64)
  /-- REQUEST_ADMISSION (R4): the oldest request waiting on a region is admitted. -/
  | requestAdmission (region : RegionNo)
  /-- MODE_CHANGE_APPLIED (R7). -/
  | modeChangeApplied (region : RegionNo)
  /-- LINE_GRANT (R24): the front of a line's queue is granted. `failed` names a structure whose entry fails its check
  code when the step reads it (R162); the other five rows for which 95_what_each_step_holds.md names R162 have it in a `Checked`
  operand. -/
  | lineGrant (line : Nat) (failed : Option CheckDetail)
  /-- SLOT_QUEUE_SERVICE (R47): a free slot goes to the front of the slot queue. -/
  | slotQueueService (slot : SlotNo)
  /-- ARBITER_GRANT (R34): the Arbiter gives this free tag to a waiting request. -/
  | arbiterGrant (tag : MemTag)
  /-- HOLD_LIMIT_EXPIRY (R27). -/
  | holdLimitExpiry (tag : ReqTag)
  /-- MEMORY_RESPONSE_LIMIT (R30). -/
  | memoryResponseLimit (tag : Checked MemTag)
  /-- STALL_LIMIT_EXPIRY (R72). -/
  | stallLimitExpiry (stream : StreamNo)
  /-- FORWARDED_REQUEST_ANSWER (R29). -/
  | forwardedRequestAnswer (tag : MemTag) (answer : MemAnswer)
  /-- CAPTURE_READ_ANSWER (R49). -/
  | captureReadAnswer (tag : MemTag) (answer : MemAnswer)
  /-- RECORD_PLACEMENT (R62): one record of the stream is placed, or meets what stops it. -/
  | recordPlacement (stream : StreamNo)
  /-- RECORD_LINE_ANSWER (R51). -/
  | recordLineAnswer (tag : MemTag) (answer : MemAnswer)
  /-- DESCRIPTOR_FETCH_ANSWER (R67). -/
  | descriptorFetchAnswer (tag : MemTag) (answer : MemAnswer)
  /-- EXTEND_TARGET_CHOICE (R74). -/
  | extendTargetChoice (stream : StreamNo)
  /-- DESCRIPTOR_UPDATE_READ_ANSWER (R74). -/
  | descriptorUpdateReadAnswer (tag : MemTag) (answer : MemAnswer)
  /-- DESCRIPTOR_UPDATE_WRITE_ANSWER (R74). -/
  | descriptorUpdateWriteAnswer (tag : MemTag) (answer : MemAnswer)
  /-- ANCHOR_WRITE_ISSUE (R125). -/
  | anchorWriteIssue (stream : StreamNo)
  /-- ANCHOR_WRITE_LINE_ANSWER (R126). -/
  | anchorWriteLineAnswer (tag : MemTag) (answer : MemAnswer)
  /-- DETACH_FINAL_ANCHOR (R82). -/
  | detachFinalAnchor (stream : StreamNo)
  /-- ANCHOR_READ_ANSWER (R128). -/
  | anchorReadAnswer (tag : MemTag) (answer : MemAnswer)
  /-- RESUME_DESCRIPTOR_ANSWER (R132). -/
  | resumeDescriptorAnswer (tag : MemTag) (answer : MemAnswer)
  /-- SCAN_READ_ANSWER (R133). -/
  | scanReadAnswer (tag : MemTag) (answer : MemAnswer)
  /-- ENGINE_CLAIM_HANDOFF (R103). -/
  | engineClaimHandoff
  /-- HOLDING_END (R107). -/
  | holdingEnd
  /-- RESUMED_HOLDING_END (R118). -/
  | resumedHoldingEnd
  /-- JOURNAL_READ_ANSWER (R109). -/
  | journalReadAnswer (tag : MemTag) (answer : MemAnswer)
  /-- RESTORE_WRITE_ANSWER (R111). -/
  | restoreWriteAnswer (tag : MemTag) (answer : MemAnswer)
  /-- TRUNCATION_DESCRIPTOR_ANSWER (R114). -/
  | truncationDescriptorAnswer (tag : MemTag) (answer : MemAnswer)
  /-- COMMAND_FETCH_ISSUE (R142). -/
  | commandFetchIssue
  /-- COMMAND_FETCH_ANSWER (R142). -/
  | commandFetchAnswer (tag : MemTag) (answer : MemAnswer)
  /-- COMMAND_RECORD_TAKEN (R143): the held record is taken. -/
  | commandRecordTaken
  /-- NOP (R148): from here to DEVICE_CLEAR, the Command Unit takes a record of that command with these fields. -/
  | nop (head : CmdHead)
  /-- IDENTIFY (R148). -/
  | identify (head : CmdHead)
  /-- CONFIGURE (R149). -/
  | configure (head : CmdHead) (hold notify : BitVec 8)
  /-- SET_REGION (R10). -/
  | setRegion (head : CmdHead) (base : BitVec 64) (exponent stream : BitVec 8)
  /-- SET_MODE (R11, R12). -/
  | setMode (head : CmdHead) (mode : BitVec 8)
  /-- QUERY_REGION (R150). -/
  | queryRegion (head : CmdHead)
  /-- ATTACH FRESH (R128, R129). -/
  | attachFresh (head : CmdHead) (policy stall : BitVec 8) (label : BitVec 32) (anchor first : BitVec 64)
  /-- ATTACH RESUME (R128, R132). -/
  | attachResume (head : CmdHead) (anchor : BitVec 64)
  /-- DETACH (R81). -/
  | detach (head : CmdHead)
  /-- EXTEND (R73). -/
  | extend (head : CmdHead) (descriptor : BitVec 64)
  /-- MARK (R91, R92). -/
  | mark (head : CmdHead) (label : BitVec 32)
  /-- RELEASE (R97, R98). -/
  | release (head : CmdHead) (epoch : BitVec 32)
  /-- ROLLBACK (R104, R105). -/
  | rollback (head : CmdHead) (epoch : BitVec 32)
  /-- QUERY_STREAM (R151). -/
  | queryStream (head : CmdHead) (item : BitVec 8)
  /-- DEVICE_CLEAR (R152). -/
  | deviceClear (head : Checked CmdHead)
  /-- HEAD_LINE_WRITE_ISSUE (R143): the waiting head-line write asks for its line. -/
  | headLineWriteIssue
  /-- HEAD_LINE_WRITE_ANSWER (R143). -/
  | headLineWriteAnswer (tag : Checked MemTag) (answer : MemAnswer)
  /-- REPORT_WRITE_ISSUE (R155). -/
  | reportWriteIssue
  /-- REPORT_WRITE_ANSWER (R155). -/
  | reportWriteAnswer (tag : Checked MemTag) (answer : MemAnswer)
  /-- HOLD_SET_DRAINED (R166). -/
  | holdSetDrained
  /-- FAULT_RECORD_FIRST_LINE_ANSWER (R166). -/
  | faultRecordFirstLineAnswer (tag : MemTag) (answer : MemAnswer)
  /-- FAULT_RECORD_CLOSING_LINE_ANSWER (R168). -/
  | faultRecordClosingLineAnswer (tag : MemTag) (answer : MemAnswer)
  /-- ABANDONED_TAG_ANSWER (R30). -/
  | abandonedTagAnswer (tag : MemTag) (answer : MemAnswer)
  /-- STRAY_RESPONSE (R31): a message of the memory port that answers nothing. -/
  | strayResponse (tag : Checked MemTag) (answer : MemAnswer)
  /-- COLD_RESET (R174): a pulse of RESET_N, with the WINSEL straps at its rising edge. -/
  | coldReset (winsel : BitVec 8)
deriving DecidableEq, Repr

end Sys2Proof
end

