-- ==== Sys2Proof/Decode.lean ====
section
/-! DEFINITION. The decoder over the table's bits. No row of spec/opcode_table.json gives bits ("fields" is empty in every
row), so no word spells a command (log 32). Command RECORDS, which the part itself fetches and decodes, are decoded in
Machine/Operands.lean and Machine/CommandUnit.lean. -/
namespace Sys2Proof

/-- The command that a word of the table's bits spells: none, for every word. -/
def decodeTableWord (_nbits _w : Nat) : Option Instr := none

end Sys2Proof
end

