-- ==== Sys2Proof/Config.lean ====
section
/-! DEFINITION. What this revision of the part fixes once: the capacities the manual names, the limits of its numbers, and
the bound the model puts on the inner steps of one event. The manual leaves no value free (see INVENTORY.md, "What the manual
leaves open"), so no constant here is without a body. -/
namespace Sys2Proof.Config

/-- Entries of the capture filter (R42). -/
def filterEntries : Nat := 2048

/-- Marks of an epoch table (R87). -/
def tableMarks : Nat := 8

/-- Entries of a segment history (R69). -/
def historyEntries : Nat := 16

/-- Records of a read window or a scan window (R109, R133). -/
def windowRecords : Nat := 8

/-- Restore writes outstanding at most (R111). -/
def restoreWrites : Nat := 8

/-- Tags held by forwarded requests at most (R32). -/
def forwardedBound : Nat := 48

/-- Tags held by the part's own requests at most (R32). -/
def internalBound : Nat := 32

/-- The highest value of the age count (R34). -/
def ageBound : Nat := 8

/-- The occupancy from which the queue is crowded (R139, R158). -/
def crowdedQueue : Nat := 16

/-- One past the last byte address: 1 TiB (00_scope.md 3.1). -/
def addressSpace : Nat := 2 ^ 40

/-- 4,294,967,295: the sequence no record may take (R64) and the last epoch (R86). -/
def topNumber : Nat := 4294967295

/-- The memory response limit in microseconds (R30). -/
def responseLimit : Nat := 4000

/-- How many inner steps one event runs at most. DESIGN CHOICE (log 3): far above what one event of the part can start. -/
def innerSteps : Nat := 4096

end Sys2Proof.Config
end

