-- ==== Sys2Proof/Machine/State.lean ====
section
/-! DEFINITION. The state of the part as plain data, block by block as 00_scope.md Table 1 lists them, and its cold values.
What a field means is said where the manual's table says it; the model's own fields say so. -/
namespace Sys2Proof.Machine

/-! ## Region Table (Chapter 1) -/

/-- The five modes of a region (Table 1-1). -/
inductive Mode where
  | off | pass | journal | hold | seal
deriving DecidableEq, Repr

/-- The change still to be applied to a region, and who asked for it (Table 1-1). -/
inductive Change where
  | none
  | internal
  | tagged (tag : BitVec 16)
deriving DecidableEq, Repr

/-- A region entry (Table 1-1). -/
structure Region where
  base : Nat
  exponent : Nat
  stream : Option StreamNo
  requested : Mode
  effective : Mode
  change : Change
  resume : Option Mode
  admitted : Nat
  degrading : Bool
deriving DecidableEq, Repr

/-- The cold value of a region entry (R2). -/
def Region.cold : Region := ⟨0, 12, none, .off, .off, .none, none, 0, false⟩

/-! ## Request Path and Memory Port Arbiter (Chapter 2) -/

/-- Where an accepted request stands (Table 2-4). -/
inductive RequestState where
  | waitMode | waitOrder | waitSlot | capturing | ready | forwarded
deriving DecidableEq, Repr

/-- A pending request table entry (Table 2-3). `write` is the kind; mask and data are zero for a READ. -/
structure Request where
  write : Bool
  line : Nat
  mask : Mask
  data : Line
  covering : Option RegionNo
  stream : Option StreamNo
  admission : Option Nat
  holdStart : Nat
  state : RequestState
deriving DecidableEq, Repr

/-- The two copies of an anchor (R122). -/
inductive Copy where
  | a | b
deriving DecidableEq, Repr

/-- The five classes of the Arbiter (Table 2-7). -/
inductive PortClass where
  | c1 | c2 | c3 | c4 | c5
deriving DecidableEq, Repr

/-- What a request of the memory port is for. `discard` is a request whose owner has abandoned it: its answer frees its
line lock and is otherwise discarded. `lateHeadLine` is a head-line write that was outstanding at a device clear: its answer
also frees the head-line write position, which is still its own (R143). -/
inductive Job where
  | forward (t : ReqTag)
  | capture (k : SlotNo)
  | slotRecord (k : SlotNo) (image : Bool)
  | markRecord (st : StreamNo) (image : Bool)
  | commandFetch
  | descriptor (st : StreamNo)
  | firstDescriptor (st : StreamNo)
  | updateRead (st : StreamNo)
  | updateWrite (st : StreamNo)
  | anchorRead (st : StreamNo) (copy : Copy) (i : Fin 16)
  | anchorWrite (st : StreamNo) (i : Fin 16)
  | resumeDescriptor (st : StreamNo)
  | scanRead (st : StreamNo) (sequence : Nat) (image : Bool)
  | journalRead (sequence : Nat) (image : Bool)
  | restore (sequence : Nat)
  | truncationDescriptor (st : StreamNo)
  | report
  | headLine
  | lateHeadLine
  | faultFirst
  | faultClosing
  | discard (c : PortClass)
deriving DecidableEq, Repr

/-- A request for the memory port: what it is for, its line, READ or WRITE, and for a WRITE its mask and data. -/
structure PortRequest where
  job : Job
  line : Nat
  write : Bool
  mask : Mask
  data : Line
deriving DecidableEq, Repr

/-- Who may use a line on the memory port now (R23): nobody, `n` reads, or one write. -/
inductive Hold where
  | free
  | shared (n : Nat)
  | held
deriving DecidableEq, Repr

/-- One that asks for a line: an upstream request, or a request of the part's own (R23). -/
inductive Asker where
  | upstream (t : ReqTag) (write : Bool)
  | own (r : PortRequest)
deriving DecidableEq, Repr

/-- The lock of a line and its queue, oldest first (R23). -/
structure LineLock where
  line : Nat
  hold : Hold
  queue : List Asker
deriving DecidableEq, Repr

/-- A memory tag that is outstanding or abandoned (R30, R32): its request, whether it is a forwarded one (its class count),
whether it is abandoned, and the moment of its grant. -/
structure Issued where
  tag : MemTag
  request : PortRequest
  forwarded : Bool
  abandoned : Bool
  grantedAt : Nat
deriving DecidableEq, Repr

/-- The Request Path: the pending request table, the tags in WAIT_MODE in the order of acceptance, the lines with lock state
in ascending order, the admission order counter and the fence number (R21 to R24, R39). -/
structure RequestPath where
  requests : Table (Option Request) 64
  waitMode : List ReqTag
  locks : List LineLock
  admissions : Nat
  fence : Nat
deriving DecidableEq, Repr

/-- The cold Request Path (R40). -/
def RequestPath.cold : RequestPath := ⟨Table.fill 64 none, [], [], 0, 0⟩

/-- The Memory Port Arbiter: the requests waiting in its classes in the order they entered, the tags taken, and the age
count (R32 to R34). The two class counts are computed from the tags (Flags.lean). -/
structure Arbiter where
  waiting : List PortRequest
  issued : List Issued
  age : Nat
deriving DecidableEq, Repr

/-- The cold Arbiter (R32, R35). -/
def Arbiter.cold : Arbiter := ⟨[], [], 0⟩

/-! ## Capture Unit (Chapter 3) -/

/-- The state of a filter entry; PENDING names the slot (Table 3-1). -/
inductive FilterState where
  | pending (k : SlotNo)
  | captured
deriving DecidableEq, Repr

/-- A capture filter entry (Table 3-1). -/
structure FilterEntry where
  line : Nat
  region : RegionNo
  state : FilterState
deriving DecidableEq, Repr

/-- The phases of a slot in use (Table 3-3). -/
inductive SlotPhase where
  | reading | waitingPosition | writing | done | cancelled
deriving DecidableEq, Repr

/-- A capture slot in use (Table 3-2). `linesAnswered` and `lost` are the model's own: a slot in WRITING whose stream is lost
becomes free when both its lines have been answered, whatever the answers (R56). -/
structure Slot where
  owner : Option ReqTag
  line : Nat
  region : RegionNo
  stream : StreamNo
  epoch : Nat
  linked : Bool
  image : Option Line
  sequence : Option Nat
  address : Option Nat
  linesWritten : Nat
  linesAnswered : Nat
  lost : Bool
  phase : SlotPhase
deriving DecidableEq, Repr

/-- The Capture Unit: the filter in ascending line order, the slots, and the slot queue, oldest first (R42, R46, R47). -/
structure Capture where
  filter : List FilterEntry
  slots : Table (Option Slot) 16
  queue : List ReqTag
deriving DecidableEq, Repr

/-- The cold Capture Unit (R42, R46, R47). -/
def Capture.cold : Capture := ⟨[], Table.fill 16 none, []⟩

/-! ## Stream contexts (Chapters 4, 5 and 7) -/

/-- The states of a stream (Table 4-2). -/
inductive StreamState where
  | detached | opening | resuming | active | exhausted | rollingBack | detaching | broken | faulted
deriving DecidableEq, Repr

/-- What exhaustion does (R71). -/
inductive Policy where
  | stall | breakStream
deriving DecidableEq, Repr

/-- Causes of stream loss and of failed operations (Table 4-4, R116, R131, R137, R162). -/
inductive Cause where
  | exhaustion | stallLimit | sequenceLimit | recordWrite | descriptorFetch | descriptorInvalid | descriptorUpdate
  | anchorWrite | anchorRead | anchorContent | journalRead | recordCheck | recordSequence | recordContent | restoreWrite
  | portTagConflict
deriving DecidableEq, Repr

/-- A segment descriptor as fetched (R67, Table 11-5). -/
structure Descriptor where
  format : Nat
  last : Bool
  notify : Bool
  count : Nat
  base : Nat
  link : Nat
deriving DecidableEq, Repr

/-- An entry of the segment history (Table 4-1). -/
structure Segment where
  descriptor : Nat
  base : Nat
  count : Nat
  first : Nat
  notify : Bool
deriving DecidableEq, Repr

/-- The segment records are placed in: descriptor address, contents, record index (Table 4-1). -/
structure CurrentSegment where
  descriptor : Nat
  contents : Descriptor
  index : Nat
deriving DecidableEq, Repr

/-- The descriptor entered when the current segment is full (Table 4-1). -/
inductive NextDescriptor where
  | absent
  | fetching (address : Nat)
  | held (address : Nat) (contents : Descriptor)
deriving DecidableEq, Repr

/-- An entry of the epoch table (R87). -/
structure MarkEntry where
  epoch : Nat
  label : BitVec 32
  sequence : Nat
deriving DecidableEq, Repr

/-- The record of a pending mark once it is placed, with the stream's own count of its DONEs (R63). -/
structure PlacedMark where
  sequence : Nat
  address : Nat
  linesWritten : Nat
deriving DecidableEq, Repr

/-- A MARK whose record is still to be committed; `record` is absent while it is unplaced (R92). -/
structure PendingMark where
  epoch : Nat
  label : BitVec 32
  tag : BitVec 16
  record : Option PlacedMark
deriving DecidableEq, Repr

/-- How far the anchor write that a freed segment waits on has come (R90). -/
inductive AnchorProgress where
  | waiting | outstanding | acknowledged
deriving DecidableEq, Repr

/-- A member of the freed list (R90). -/
structure FreedSegment where
  descriptor : Nat
  base : Nat
  last : Nat
  anchor : AnchorProgress
deriving DecidableEq, Repr

/-- The operations that take a stream's operation slot (R147). -/
inductive OperationKind where
  | attach | detach | mark | release | rollback
deriving DecidableEq, Repr

/-- The operation in progress: kind and tag, with what its COMMAND_DONE will carry as far as it is known (R101, R121). -/
structure Operation where
  kind : OperationKind
  tag : BitVec 16
  epoch : Nat
  label : BitVec 32
  sequence : Nat
  retired : Nat
  freed : Nat
deriving DecidableEq, Repr

/-- How far a taken EXTEND has come (R74, R76). `current` says that its target is the current descriptor. -/
inductive ExtendStage where
  | choosing
  | updating (current : Bool) (target : Nat)
  | fetching (target : Nat)
deriving DecidableEq, Repr

/-- The extension in progress (R73): tag, the descriptor address `d`, and the stage. -/
structure Extension where
  tag : BitVec 16
  descriptor : Nat
  stage : ExtendStage
deriving DecidableEq, Repr

/-- The occasions of anchor writes (Table 7-2), and the Check Unit's own (R167). A segment entry carries the number of history
entries after its append, which SEGMENT_ENTERED will name (Table 4-5); a stream loss carries the stream's current epoch at the
loss, which REGION_DEGRADED will name (R17). -/
inductive Occasion where
  | attachFirst | attachSecond | markCommit | release | pending (target : Nat) | final | resume | detach
  | entry (entries : Nat)
  | loss (epoch : Nat)
  | check
deriving DecidableEq, Repr

/-- What an anchor copy carries, but for its magic, generation and check code (Table 7-1). -/
structure AnchorContents where
  stamp : BitVec 32
  cleanDetach : Bool
  invalidated : Bool
  rollbackPending : Bool
  target : Nat
  epoch : Nat
  nextSequence : Nat
  marks : List MarkEntry
  history : List Segment
  policy : Policy
  stallLimit : Option Nat
deriving DecidableEq, Repr

/-- An anchor write offered and not yet issued (R124). An invalidation carries its anchor address and contents as they stood
at its offer (R125). -/
structure AnchorOffer where
  occasions : List Occasion
  frozen : Option (Nat × AnchorContents)
deriving DecidableEq, Repr

/-- An anchor write issued and not yet answered (R124, R126): whom it serves, the copy and its address, the generation it
carries, and how many of its sixteen lines memory has acknowledged. -/
structure AnchorWrite where
  occasions : List Occasion
  copy : Copy
  address : Nat
  generation : BitVec 32
  acknowledged : Nat
deriving DecidableEq, Repr

/-- A record of a read window or a scan window, with the lines received (Table 6-1, R133). -/
structure WindowRecord where
  sequence : Nat
  address : Nat
  header : Option Line
  image : Option Line
deriving DecidableEq, Repr

/-- The forward scan of ATTACH RESUME (R133), with its counts for Table 7-3. -/
structure Scan where
  expected : Nat
  nextUnread : Nat
  window : List WindowRecord
  accepted : Nat
  marks : Nat
deriving DecidableEq, Repr

/-- An ATTACH under way (R128 to R134): variant, whether its anchor reads are offered, whether it has failed in a way that a device
check's handling has dropped, so that it offers nothing more (R163, log 63), the lines of the two copies received, whether both
copies have been judged, for FRESH the first descriptor, whether the first anchor write is acknowledged, for
RESUME the loaded rollback target with its mark sequence in the loaded epoch table (R118), and the scan. -/
structure Attach where
  fresh : Bool
  readsOffered : Bool
  failed : Bool
  copyA : Table (Option Line) 16
  copyB : Table (Option Line) 16
  judged : Bool
  firstAddress : Nat
  first : Option Descriptor
  firstAnchored : Bool
  target : Option Nat
  targetSequence : Option Nat
  scan : Option Scan
deriving DecidableEq, Repr

/-- The invalidation anchor write of stream loss (R79). -/
inductive Invalidation where
  | none | waiting | outstanding
deriving DecidableEq, Repr

/-- A stream context (Table 4-1), its anchor logic (R124), and the ATTACH under way. -/
structure Stream where
  state : StreamState
  policy : Policy
  stallLimit : Option Nat
  anchorAddress : Nat
  stamp : BitVec 32
  generation : BitVec 32
  newest : Copy
  epoch : Option Nat
  pendingMark : Option PendingMark
  nextSequence : Option Nat
  committed : Option Nat
  acknowledged : List Nat
  positions : List (SlotNo × Nat)
  current : Option CurrentSegment
  next : NextDescriptor
  extensionLink : Option Nat
  entering : Bool
  history : List Segment
  freed : List FreedSegment
  marks : List MarkEntry
  saturated : Bool
  operation : Option Operation
  extension : Option Extension
  resumedTarget : Option Nat
  stallStart : Option Nat
  lossCause : Option Cause
  invalidation : Invalidation
  anchorWaiting : Option AnchorOffer
  anchorOutstanding : Option AnchorWrite
  attach : Option Attach
deriving DecidableEq, Repr

/-- The cold stream context: the last column of Table 4-1, and R124. -/
def Stream.cold : Stream where
  state := .detached
  policy := .stall
  stallLimit := some 0
  anchorAddress := 0
  stamp := 0
  generation := 0
  newest := .a
  epoch := none
  pendingMark := none
  nextSequence := none
  committed := none
  acknowledged := []
  positions := []
  current := none
  next := .absent
  extensionLink := none
  entering := false
  history := []
  freed := []
  marks := []
  saturated := false
  operation := none
  extension := none
  resumedTarget := none
  stallStart := none
  lossCause := none
  invalidation := .none
  anchorWaiting := none
  anchorOutstanding := none
  attach := none

/-! ## Rollback Engine (Chapter 6) -/

/-- The phases of a rollback (Table 6-1). -/
inductive Phase where
  | idle | holding | pendingAnchor | restoring | truncating | finalAnchor
deriving DecidableEq, Repr

/-- Who asked for a rollback (Table 6-1). -/
inductive Origin where
  | command | resume
deriving DecidableEq, Repr

/-- The engine context (Table 6-1). `targetOffered` is implied by R109: the target's MARK record, at which the read pointer stops, has
been offered for reading (log 73). `targetMet` is implied by R112: it has been processed. -/
structure Engine where
  phase : Phase
  owner : Option StreamNo
  origin : Origin
  tag : BitVec 16
  targetEpoch : Option Nat
  targetSequence : Option Nat
  walkTop : Option Nat
  readPointer : Option Nat
  applyPointer : Option Nat
  window : List WindowRecord
  restores : Nat
  applied : Nat
  skipped : Nat
  targetOffered : Bool
  targetMet : Bool
  claims : List StreamNo
deriving DecidableEq, Repr

/-- The cold engine context: the last column of Table 6-1. -/
def Engine.cold : Engine :=
  ⟨.idle, none, .command, 0, none, none, none, none, none, [], 0, 0, 0, false, false, []⟩

/-! ## Command Unit (Chapter 8) -/

/-- Where the fetch of the record at head stands (Table 8-1). -/
inductive FetchState where
  | idle
  | fetching (address : Nat)
  | held (record : Line)
  | unreadable
deriving DecidableEq, Repr

/-- The chain state (R146). -/
inductive ChainState where
  | none
  | waiting (tag : BitVec 16)
  | following
  | skipping
deriving DecidableEq, Repr

/-- The Command Unit context (Table 8-1), and the head-line write position (R143): a waiting write, which has or has not yet
asked for its line, and an outstanding one. A hold limit of `none` is unlimited. -/
structure CommandUnit where
  ringSet : Bool
  base : Nat
  exponent : Nat
  head : Nat
  tail : Nat
  fetch : FetchState
  chain : ChainState
  holdLimit : Option Nat
  notifyEnable : Bool
  headWaiting : Bool
  headAsked : Bool
  headOutstanding : Bool
deriving DecidableEq, Repr

/-- The cold Command Unit: the last column of Table 8-1, and R143. -/
def CommandUnit.cold : CommandUnit := ⟨false, 0, 2, 0, 0, .idle, .none, some 10, true, false, false, false⟩

/-! ## Report Unit (Chapter 9) -/

/-- The report kinds (Table 9-3). -/
inductive ReportKind where
  | commandDone | modeReached | modeSuperseded | regionDegraded | segmentEntered | segmentFreed | markRetired
  | streamExhausted | streamLost | filterSaturated | captureFailed | check | windowMisuse | reportsMerged
deriving DecidableEq, Repr

/-- The completion statuses (Table 8-2). -/
inductive Status where
  | ok | skipped | failed | fetchError | badOpcode | badArgument | regionInUse | overlap | noStream | streamState
  | streamBusy | engineBusy | noSuchMark | epochLimit | chainNotEnded | anchorInvalid | anchorInvalidated
deriving DecidableEq, Repr

/-- A report (section 9.7, Table 11-3). Stream and region are the bytes of the record, FFh for none; the lap bit and the
report sequence are filled at the issue (R155). -/
structure Report where
  kind : ReportKind
  lap : Bool := false
  number : BitVec 32 := 0
  tag : BitVec 16 := 0
  status : Status := .ok
  stream : Nat := 0xFF
  region : Nat := 0xFF
  epoch : Nat := 0
  label : Nat := 0
  sequence : Nat := 0
  address : Nat := 0
  first : Nat := 0
  second : Nat := 0
deriving DecidableEq, Repr

/-- The merged summary (R158): the stream mask, the count of each asynchronous kind in the order of their codes 4 to 13, and
the total count. -/
structure Summary where
  mask : Table Bool 4
  counts : Table Nat 10
  total : Nat
deriving DecidableEq, Repr

/-- The empty summary. -/
def Summary.empty : Summary := ⟨Table.fill 4 false, Table.fill 10 0, 0⟩

/-- The Report Unit context (Table 9-1). -/
structure ReportUnit where
  ringSet : Bool
  base : Nat
  exponent : Nat
  producer : Nat
  acknowledged : Nat
  sequence : BitVec 32
  queue : List Report
  writing : Bool
  summary : Summary
deriving DecidableEq, Repr

/-- The cold Report Unit: the last column of Table 9-1. -/
def ReportUnit.cold : ReportUnit := ⟨false, 0, 3, 0, 0, 0, [], false, Summary.empty⟩

/-! ## Check Unit (Chapter 10) -/

/-- The states of the Check Unit (Table 10-3). -/
inductive CheckState where
  | normal | hold | record | invalidate | close
deriving DecidableEq, Repr

/-- The device-check causes (Table 10-1). -/
inductive DeviceCause where
  | internalState | memoryTimeout | strayResponse | reportWrite | invalidationWrite | command
deriving DecidableEq, Repr

/-- The outcome of a stream's invalidation write (Table 10-2). -/
inductive CheckResult where
  | notAttempted | invalidated | notInvalidated
deriving DecidableEq, Repr

/-- How far the Check Unit's invalidation of a stream has come (R167). -/
inductive InvalidateStage where
  | none | awaiting | offered
deriving DecidableEq, Repr

/-- The Check Unit context (Table 10-2). `stages` and `lossStream` are implied by R167: what each stream's invalidation waits
on, and the stream whose own invalidation write began the handling. -/
structure CheckUnit where
  state : CheckState
  cause : Option (DeviceCause × CheckDetail)
  second : Option (DeviceCause × CheckDetail)
  holdSet : List MemTag
  snapshot : Table (Bool × Nat) 4
  results : Table CheckResult 4
  clearCount : BitVec 32
  recordWritten : Option (BitVec 32)
  stages : Table InvalidateStage 4
  lossStream : Option StreamNo
deriving DecidableEq, Repr

/-- The cold Check Unit: the last column of Table 10-2. -/
def CheckUnit.cold : CheckUnit :=
  ⟨.normal, none, none, [], Table.fill 4 (false, 0), Table.fill 4 .notAttempted, 0, none, Table.fill 4 .none, none⟩

/-! ## The whole part -/

/-- A message the part sends on the memory port (Table 2-6, direction out); mask and data are zero for a READ. -/
structure PortMessage where
  tag : MemTag
  write : Bool
  line : Nat
  mask : Mask
  data : Line
deriving DecidableEq, Repr

/-- The part. `now` is the model's clock in microseconds; `responses` and `sent` are the model's record of what has left the
requester port and the memory port since the last cold reset, oldest first; `winsel` is the value of the straps sampled at
the last cold reset (R36); `notify` says that NOTIFY_N is driven low (R161). -/
structure Device where
  now : Nat
  winsel : BitVec 8
  regions : Table Region 16
  path : RequestPath
  arbiter : Arbiter
  capture : Capture
  streams : Table Stream 4
  engine : Engine
  command : CommandUnit
  report : ReportUnit
  check : CheckUnit
  notify : Bool
  responses : List (ReqTag × Response)
  sent : List PortMessage
deriving DecidableEq, Repr

/-- The part right after a cold reset that sampled `winsel` (R174 and the cold values of every block). -/
def Device.cold (winsel : BitVec 8) : Device where
  now := 0
  winsel := winsel
  regions := Table.fill 16 Region.cold
  path := RequestPath.cold
  arbiter := Arbiter.cold
  capture := Capture.cold
  streams := Table.fill 4 Stream.cold
  engine := Engine.cold
  command := CommandUnit.cold
  report := ReportUnit.cold
  check := CheckUnit.cold
  notify := false
  responses := []
  sent := []

/-- The state of the model: the commands that wait, oldest first, and the part. -/
structure State where
  pending : List Instr
  dev : Device
deriving DecidableEq, Repr

/-- The state right after reset: no command waits; the straps are taken as 0 (DESIGN CHOICE, log 8). -/
def State.reset : State := ⟨[], Device.cold 0⟩

/-- Why the model stops with a fault: never. The spec gives every row an effect and every failure of the part is a change of
its state (R162), so there is no constructor to raise. -/
inductive Fault where
deriving DecidableEq, Repr

/-- Why the model refuses a command. -/
inductive Refusal where
  /-- The command has no meaning yet. Raised by exec's arm alone; safe. No arm raises it. -/
  | notModelled (mnemonic : String)
deriving DecidableEq, Repr

end Sys2Proof.Machine
end

