-- ==== Sys2Proof/Machine/Operands.lean ====
section
/-! DEFINITION. Every operand form: the codes of Table 11-1, and the formats that the part exchanges through memory, as bits
of lines (11_memory_formats_signals_and_identification.md). -/
namespace Sys2Proof.Machine

/-! ## Bytes of a line (R171) -/

/-- The unsigned little-endian number in `size` bytes from byte `offset` (R171). -/
def bytesAt {n : Nat} (w : BitVec n) (offset size : Nat) : Nat :=
  (w.toNat >>> (8 * offset)) % 2 ^ (8 * size)

/-- The bits with the named fields (offset, size, value) in place and every other byte zero (R171). -/
def layout (n : Nat) (fields : List (Nat × Nat × Nat)) : BitVec n :=
  BitVec.ofNat n (fields.foldl (fun acc f => acc ||| ((f.2.2 % 2 ^ (8 * f.2.1)) <<< (8 * f.1))) 0)

/-- The full mask of the part's own writes (Table 2-6). -/
def fullMask : Mask := BitVec.ofNat 64 (2 ^ 64 - 1)

/-- The line that holds a byte address. -/
def lineOf (address : Nat) : Nat := address / 64 * 64

/-! ## The command window (R36, Table 2-8) -/

/-- The first byte of the command window page (R36). -/
def windowBase (winsel : BitVec 8) : Nat := winsel.toNat * 2 ^ 32 + 0xFFFFF000

/-- Whether `length` bytes from `base` share a byte with the window page (R9, Table 4-3). -/
def meetsWindow (winsel : BitVec 8) (base length : Nat) : Bool :=
  decide (base < windowBase winsel + 4096) && decide (windowBase winsel < base + length)

/-! ## Codes (Table 11-1) -/

/-- Mode codes. -/
def Mode.code : Mode → Nat
  | .off => 0
  | .pass => 1
  | .journal => 2
  | .hold => 3
  | .seal => 4

/-- The mode of a code. -/
def Mode.ofCode : Nat → Option Mode
  | 0 => some .off
  | 1 => some .pass
  | 2 => some .journal
  | 3 => some .hold
  | 4 => some .seal
  | _ => none

/-- The resume mode's code, 255 when absent. -/
def resumeCode : Option Mode → Nat
  | none => 255
  | some m => m.code

/-- Report kind codes. -/
def ReportKind.code : ReportKind → Nat
  | .commandDone => 1
  | .modeReached => 2
  | .modeSuperseded => 3
  | .regionDegraded => 4
  | .segmentEntered => 5
  | .segmentFreed => 6
  | .markRetired => 7
  | .streamExhausted => 8
  | .streamLost => 9
  | .filterSaturated => 10
  | .captureFailed => 11
  | .check => 12
  | .windowMisuse => 13
  | .reportsMerged => 14

/-- Status codes. -/
def Status.code : Status → Nat
  | .ok => 0
  | .skipped => 1
  | .failed => 2
  | .fetchError => 3
  | .badOpcode => 4
  | .badArgument => 5
  | .regionInUse => 6
  | .overlap => 7
  | .noStream => 8
  | .streamState => 9
  | .streamBusy => 10
  | .engineBusy => 11
  | .noSuchMark => 12
  | .epochLimit => 13
  | .chainNotEnded => 14
  | .anchorInvalid => 15
  | .anchorInvalidated => 16

/-- Stream state codes. -/
def StreamState.code : StreamState → Nat
  | .detached => 0
  | .opening => 1
  | .resuming => 2
  | .active => 3
  | .exhausted => 4
  | .rollingBack => 5
  | .detaching => 6
  | .broken => 7
  | .faulted => 8

/-- Operation in progress codes. -/
def OperationKind.code : OperationKind → Nat
  | .attach => 1
  | .detach => 2
  | .mark => 3
  | .release => 4
  | .rollback => 5

/-- Engine phase codes. -/
def Phase.code : Phase → Nat
  | .idle => 0
  | .holding => 1
  | .pendingAnchor => 2
  | .restoring => 3
  | .truncating => 4
  | .finalAnchor => 5

/-- Policy codes. -/
def Policy.code : Policy → Nat
  | .stall => 0
  | .breakStream => 1

/-- The policy of an anchor's code. -/
def Policy.ofCode (n : Nat) : Policy := if n = 1 then .breakStream else .stall

/-- Stall limit codes: the exponent, or 11 for unlimited. -/
def stallCode : Option Nat → Nat
  | none => 11
  | some k => k

/-- The stall limit of a code. -/
def stallOfCode (n : Nat) : Option Nat := if n ≤ 10 then some n else none

/-- Stream and check cause codes. -/
def Cause.code : Cause → Nat
  | .exhaustion => 1
  | .stallLimit => 2
  | .sequenceLimit => 3
  | .recordWrite => 4
  | .descriptorFetch => 5
  | .descriptorInvalid => 6
  | .descriptorUpdate => 7
  | .anchorWrite => 8
  | .anchorRead => 9
  | .anchorContent => 10
  | .journalRead => 11
  | .recordCheck => 12
  | .recordSequence => 13
  | .recordContent => 14
  | .restoreWrite => 15
  | .portTagConflict => 16

/-- The code of an optional cause, 0 for none. -/
def causeCode : Option Cause → Nat
  | none => 0
  | some c => c.code

/-- Device-check cause codes. -/
def DeviceCause.code : DeviceCause → Nat
  | .internalState => 32
  | .memoryTimeout => 33
  | .strayResponse => 34
  | .reportWrite => 35
  | .invalidationWrite => 36
  | .command => 37

/-- Device-check detail codes. -/
def detailCode : CheckDetail → Nat
  | .none => 0
  | .regionTable => 1
  | .pendingTable => 2
  | .filter => 3
  | .slots => 4
  | .engine => 5
  | .streamContext s => 8 + s.1

/-- Why a mark is retired (R88). -/
inductive RetireCause where
  | capacity | released | history
deriving DecidableEq, Repr

/-- Retirement cause codes. -/
def RetireCause.code : RetireCause → Nat
  | .capacity => 1
  | .released => 2
  | .history => 3

/-- Invalidation result codes. -/
def CheckResult.code : CheckResult → Nat
  | .notAttempted => 0
  | .invalidated => 1
  | .notInvalidated => 2

/-! ## Ring setup words (R172) -/

/-- The ring base of a RING_SETUP or REPORT_SETUP value: bits 0 to 39. -/
def ringBase (v : BitVec 64) : Nat := v.toNat % 2 ^ 40

/-- The ring size exponent: bits 56 to 63. -/
def ringExponent (v : BitVec 64) : Nat := v.toNat / 2 ^ 56

/-- The placement tests that RING_SETUP and REPORT_SETUP share (R140, R154). -/
def ringPlaced (winsel : BitVec 8) (low high : Nat) (v : BitVec 64) : Bool :=
  decide (low ≤ ringExponent v) && decide (ringExponent v ≤ high) && decide (ringBase v % 64 = 0)
  && decide (ringBase v + 2 ^ ringExponent v * 64 ≤ Config.addressSpace)
  && !meetsWindow winsel (ringBase v) (2 ^ ringExponent v * 64)

/-! ## Reports (Table 11-3) -/

/-- A report as it is written into the ring. -/
def Report.encode (r : Report) : Line :=
  layout 512
    [(0x00, 1, r.kind.code), (0x01, 1, if r.lap then 1 else 0), (0x02, 2, r.tag.toNat), (0x04, 1, r.status.code),
     (0x05, 1, r.stream), (0x06, 1, r.region), (0x08, 4, r.number.toNat), (0x0C, 4, r.epoch), (0x10, 4, r.label),
     (0x14, 4, r.sequence), (0x18, 8, r.address), (0x20, 8, r.first), (0x28, 8, r.second)]

/-- The head line of the window: COMMAND_HEAD and REPORT_HEAD (R143, R172). -/
def headLine (head producer : Nat) : Line := layout 512 [(0x00, 8, head), (0x08, 8, producer)]

/-! ## The device fault record (Table 11-7) -/

/-- The first line, at window + 100h. -/
def faultFirstLine (number : Nat) (snapshot : Table (Bool × Nat) 4) : Line :=
  layout 512 ((0x00, 4, number) :: (indices 4).flatMap fun s =>
    [(0x08 + s.1, 1, if (snapshot.get s).1 then 1 else 0), (0x10 + 8 * s.1, 8, (snapshot.get s).2)])

/-- The code of a check's cause and of its detail, both 0 for none. -/
def checkCodes : Option (DeviceCause × CheckDetail) → Nat × Nat
  | none => (0, 0)
  | some (c, t) => (c.code, detailCode t)

/-- The closing line, at window + 140h. -/
def faultClosingLine (number : Nat) (cause second : Option (DeviceCause × CheckDetail)) (results : Table CheckResult 4) :
    Line :=
  layout 512 ([(0x00, 4, 0x3CA55AC3), (0x04, 4, number), (0x08, 1, (checkCodes cause).1), (0x09, 1, (checkCodes cause).2),
    (0x0A, 1, (checkCodes second).1), (0x0B, 1, (checkCodes second).2)]
    ++ (indices 4).map fun s => (0x0C + s.1, 1, (results.get s).code))

/-! ## The check code (R173) -/

/-- One message bit enters the register. -/
def crcBit (r : Nat) (bit : Bool) : Nat :=
  if r.testBit 31 == bit then (r <<< 1) % 2 ^ 32 else ((r <<< 1) % 2 ^ 32) ^^^ 0x1EDC6F41

/-- `k` message bits enter the register, the least significant bit of each byte first. -/
def crcRun : Nat → Nat → Nat → Nat
  | 0, _, r => r
  | k + 1, m, r => crcRun k (m / 2) (crcBit r (m % 2 == 1))

/-- The lowest `k` bits of `r` in reverse order. -/
def reflect : Nat → Nat → Nat
  | 0, _ => 0
  | k + 1, r => (r % 2) * 2 ^ k + reflect k (r / 2)

/-- The check code over a message of `n` bits, byte 0 lowest (R173). -/
def crc {n : Nat} (message : BitVec n) : Nat := 2 ^ 32 - 1 - reflect 32 (crcRun n message.toNat (2 ^ 32 - 1))

/-- The bits with `size` bytes from `offset` taken as zero. -/
def zeroed {n : Nat} (w : BitVec n) (offset size : Nat) : BitVec n :=
  w &&& ~~~ (BitVec.ofNat n ((2 ^ (8 * size) - 1) <<< (8 * offset)))

/-- The check code of a journal record: 64 header bytes, the check field as zero, then 64 image bytes (R173). -/
def recordCheckCode (header image : Line) : Nat := crc (image ++ zeroed header 0x1C 4)

/-- The check code of an anchor copy (R173). -/
def anchorCheckCode (copy : BitVec 8192) : Nat := crc (zeroed copy 0x004 4)

/-! ## Journal records (Table 11-4) -/

/-- Journal record kind codes. -/
def beforeImageKind : Nat := 1
/-- Journal record kind codes. -/
def markKind : Nat := 2

/-- The header line of a record with its check code (R51, R63). -/
def recordHeader (kind stream region stamp sequence epoch line label : Nat) (image : Line) : Line :=
  let bare := layout 512 [(0x00, 1, kind), (0x01, 1, stream), (0x02, 1, region), (0x04, 4, stamp), (0x08, 4, sequence),
    (0x0C, 4, epoch), (0x10, 8, line), (0x18, 4, label)]
  bare ||| layout 512 [(0x1C, 4, recordCheckCode bare image)]

/-- The kind byte of a header line. -/
def headerKind (h : Line) : Nat := bytesAt h 0x00 1
/-- The stamp of a header line. -/
def headerStamp (h : Line) : Nat := bytesAt h 0x04 4
/-- The sequence of a header line. -/
def headerSequence (h : Line) : Nat := bytesAt h 0x08 4
/-- The epoch of a header line. -/
def headerEpoch (h : Line) : Nat := bytesAt h 0x0C 4
/-- The line address of a header line: the 40-bit address in the five lowest bytes (R171), taken as it stands. No test asks that it
be a multiple of 64 or that the field's upper bytes be zero (log 66). -/
def headerLineAddress (h : Line) : Nat := bytesAt h 0x10 5
/-- The label of a header line. -/
def headerLabel (h : Line) : Nat := bytesAt h 0x18 4
/-- Whether a record's check code is right (R110, R133). -/
def recordChecks (h image : Line) : Bool := decide (bytesAt h 0x1C 4 = recordCheckCode h image)

/-! ## Segment descriptors (Table 11-5, Table 4-3) -/

/-- The byte of its line at which a 32-byte descriptor begins (R67). For an address that is no multiple of 32, which only an anchor
copy's history can give, it is that of the half of the line in which the address falls (log 67). -/
def descriptorOffset (address : Nat) : Nat := if address % 64 < 32 then 0 else 32

/-- The descriptor at an address, out of its line (R67). -/
def parseDescriptor (line : Line) (address : Nat) : Descriptor where
  format := bytesAt line (descriptorOffset address) 1
  last := bytesAt line (descriptorOffset address + 1) 1 % 2 == 1
  notify := bytesAt line (descriptorOffset address + 1) 1 / 2 % 2 == 1
  count := bytesAt line (descriptorOffset address + 4) 4
  base := bytesAt line (descriptorOffset address + 8) 8
  link := bytesAt line (descriptorOffset address + 16) 8

/-- Table 4-3, with the 1 TiB bound of R171 on base and link. -/
def Descriptor.valid (winsel : BitVec 8) (d : Descriptor) : Bool :=
  decide (d.format = 0xD5) && decide (16 ≤ d.count) && decide (d.count ≤ 65536) && decide (d.base % 128 = 0)
  && decide (d.base + d.count * 128 ≤ Config.addressSpace)
  && (d.last || (decide (d.link % 32 = 0) && decide (d.link < Config.addressSpace)))
  && !meetsWindow winsel d.base (d.count * 128)

/-- The line of a descriptor update: bytes 10h to 17h of the descriptor hold `d`, LAST is clear, the rest as read (11.6). -/
def updatedDescriptorLine (line : Line) (address d : Nat) : Line :=
  let o := descriptorOffset address
  let flags := bytesAt line (o + 1) 1
  zeroed (zeroed line (o + 16) 8) (o + 1) 1 ||| layout 512 [(o + 16, 8, d), (o + 1, 1, flags / 2 * 2)]

/-! ## Anchor copies (Table 11-6) -/

/-- The anchor magic value. -/
def anchorMagic : Nat := 0x6B7A4A41

/-- The 1024 bytes of a copy with the given contents and generation. -/
def anchorImage (c : AnchorContents) (generation : BitVec 32) : BitVec 8192 :=
  let bare := layout 8192
    ([(0x000, 4, anchorMagic), (0x008, 4, c.stamp.toNat), (0x00C, 4, generation.toNat),
      (0x010, 1, (if c.cleanDetach then 1 else 0) + (if c.invalidated then 2 else 0) + (if c.rollbackPending then 4 else 0)),
      (0x011, 1, c.policy.code), (0x012, 1, stallCode c.stallLimit), (0x014, 1, c.marks.length),
      (0x015, 1, c.history.length), (0x018, 4, c.target), (0x01C, 4, c.epoch), (0x020, 4, c.nextSequence)]
    ++ c.marks.zipIdx.flatMap (fun m =>
      [(0x040 + 16 * m.2, 4, m.1.epoch), (0x044 + 16 * m.2, 4, m.1.label.toNat), (0x048 + 16 * m.2, 4, m.1.sequence)])
    ++ c.history.zipIdx.flatMap (fun h =>
      [(0x0C0 + 32 * h.2, 8, h.1.descriptor), (0x0C8 + 32 * h.2, 8, h.1.base), (0x0D0 + 32 * h.2, 4, h.1.count),
       (0x0D4 + 32 * h.2, 4, h.1.first), (0x0D8 + 32 * h.2, 1, if h.1.notify then 1 else 0)]))
  bare ||| layout 8192 [(0x004, 4, anchorCheckCode bare)]

/-- Line `i` of a copy. -/
def anchorLine (copy : BitVec 8192) (i : Fin 16) : Line := copy.extractLsb' (512 * i.1) 512

/-- The copy whose lines have all arrived. -/
def joinLines (lines : Table (Option Line) 16) : Option (BitVec 8192) :=
  if lines.cells.all Option.isSome then
    some (BitVec.ofNat 8192 (lines.cells.foldr (fun l acc => (l.getD 0).toNat ||| (acc <<< 512)) 0))
  else none

/-- Whether a copy is valid: its magic and its check code (R122). -/
def copyValid (copy : BitVec 8192) : Bool :=
  decide (bytesAt copy 0x000 4 = anchorMagic) && decide (bytesAt copy 0x004 4 = anchorCheckCode copy)

/-- The generation of a copy. -/
def copyGeneration (copy : BitVec 8192) : BitVec 32 := BitVec.ofNat 32 (bytesAt copy 0x00C 4)

/-- The contents of a copy; at most 8 marks and 16 history entries are read, whatever its counts say. An address is the 40-bit one
in the field's five lowest bytes (R171), and neither its alignment nor the upper bytes are tested (log 67). -/
def copyContents (copy : BitVec 8192) : AnchorContents where
  stamp := BitVec.ofNat 32 (bytesAt copy 0x008 4)
  cleanDetach := bytesAt copy 0x010 1 % 2 == 1
  invalidated := bytesAt copy 0x010 1 / 2 % 2 == 1
  rollbackPending := bytesAt copy 0x010 1 / 4 % 2 == 1
  target := bytesAt copy 0x018 4
  epoch := bytesAt copy 0x01C 4
  nextSequence := bytesAt copy 0x020 4
  marks := (List.range (min 8 (bytesAt copy 0x014 1))).map fun i =>
    ⟨bytesAt copy (0x040 + 16 * i) 4, BitVec.ofNat 32 (bytesAt copy (0x044 + 16 * i) 4), bytesAt copy (0x048 + 16 * i) 4⟩
  history := (List.range (min 16 (bytesAt copy 0x015 1))).map fun i =>
    ⟨bytesAt copy (0x0C0 + 32 * i) 5, bytesAt copy (0x0C8 + 32 * i) 5, bytesAt copy (0x0D0 + 32 * i) 4,
     bytesAt copy (0x0D4 + 32 * i) 4, bytesAt copy (0x0D8 + 32 * i) 1 % 2 == 1⟩
  policy := Policy.ofCode (bytesAt copy 0x011 1)
  stallLimit := stallOfCode (bytesAt copy 0x012 1)

/-- Whether a list of numbers strictly increases. -/
def increasing : List Nat → Bool
  | a :: b :: rest => decide (a < b) && increasing (b :: rest)
  | _ => true

/-- The contents test of R132, with the count bounds of 11.7. -/
def copyContentsPass (copy : BitVec 8192) : Bool :=
  let c := copyContents copy
  decide (bytesAt copy 0x014 1 ≤ 8) && decide (1 ≤ bytesAt copy 0x015 1) && decide (bytesAt copy 0x015 1 ≤ 16)
  && increasing (c.marks.map (·.epoch)) && increasing (c.marks.map (·.sequence))
  && increasing (c.history.map (·.first))
  && c.marks.all (fun m => decide ((c.history.head?.map (·.first)).getD 0 ≤ m.sequence) && decide (m.sequence < c.nextSequence))
  && decide ((c.history.getLast?.map (·.first)).getD 0 ≤ c.nextSequence)
  && (!c.rollbackPending || c.marks.any (fun m => m.epoch == c.target))

/-- Whether generation `x` is newer than `y` (R123). -/
def generationNewer (x y : BitVec 32) : Bool := decide (1 ≤ (x - y).toNat) && decide ((x - y).toNat ≤ 2147483647)

/-- The newest valid copy of the two (R123): copy B when B is newer than A, copy A otherwise. -/
def newestValid (a b : BitVec 8192) : Option (Copy × BitVec 8192) :=
  if copyValid a then
    if copyValid b && generationNewer (copyGeneration b) (copyGeneration a) then some (.b, b) else some (.a, a)
  else if copyValid b then some (.b, b)
  else none

/-- The address of a copy (R122). -/
def copyAddress (anchor : Nat) : Copy → Nat
  | .a => anchor
  | .b => anchor + 1024

/-- The copy other than the given one (R126). -/
def Copy.other : Copy → Copy
  | .a => .b
  | .b => .a

/-! ## Command records (11.3, Table 11-2) -/

/-- The opcode of a record. -/
def recordOpcode (r : Line) : Nat := bytesAt r 0x00 1

/-- The bytes common to all commands. -/
def recordHead (r : Line) : CmdHead where
  tag := BitVec.ofNat 16 (bytesAt r 0x02 2)
  chain := bytesAt r 0x01 1 % 2 == 1
  target := BitVec.ofNat 8 (bytesAt r 0x04 1)

/-- The opcodes whose target is a region (Table 8-4). -/
def targetsRegion (opcode : Nat) : Bool := decide (0x10 ≤ opcode) && decide (opcode ≤ 0x12)

/-- The opcodes whose target is a stream (Table 8-4). -/
def targetsStream (opcode : Nat) : Bool := decide (0x20 ≤ opcode) && decide (opcode ≤ 0x26)

/-- The region a target byte names. -/
def targetRegion (h : CmdHead) : Option RegionNo := if p : h.target.toNat < 16 then some ⟨h.target.toNat, p⟩ else none

/-- The stream a target byte names. -/
def targetStream (h : CmdHead) : Option StreamNo := if p : h.target.toNat < 4 then some ⟨h.target.toNat, p⟩ else none

/-- The stream byte of SET_REGION: a stream, none (FFh), or out of range. -/
def bindingOf (b : BitVec 8) : Option (Option StreamNo) :=
  if p : b.toNat < 4 then some (some ⟨b.toNat, p⟩) else if b.toNat = 0xFF then some none else none

/-- The stream byte of a report (R171). -/
def streamByte : Option StreamNo → Nat
  | none => 0xFF
  | some s => s.1

end Sys2Proof.Machine
end

