-- ==== Sys2Proof/Machine/Flags.lean ====
section
/-! DEFINITION. The conditions of the rules: what decodes, is available, is eligible, is paused, is clear. None changes
state. -/
namespace Sys2Proof.Machine

/-! ## Check Unit and Command Unit -/

/-- The Check Unit handles no device check (Table 10-3). -/
def normal (d : Device) : Bool := d.check.state == .normal

/-- The occupancy of the pending report queue (Table 9-1). -/
def occupancy (d : Device) : Nat := d.report.queue.length

/-- The Command Unit is paused (R139). -/
def paused (d : Device) : Bool := !normal d || decide (Config.crowdedQueue ≤ occupancy d)

/-! ## Regions -/

/-- A region decodes (R3). -/
def Region.decodes (r : Region) : Bool := r.requested != .off || r.effective != .off

/-- A line lies in the region's range (R1). -/
def Region.holds (r : Region) (line : Nat) : Bool := decide (r.base ≤ line) && decide (line < r.base + 2 ^ r.exponent)

/-- The region that covers a line (R3). -/
def covering (d : Device) (line : Nat) : Option RegionNo :=
  (indices 16).find? fun i => (d.regions.get i).decodes && (d.regions.get i).holds line

/-- A mode is available to a region (R6). -/
def available (d : Device) (r : Region) (m : Mode) : Bool :=
  match m, r.stream with
  | .journal, some s => (d.streams.get s).state == .active || (d.streams.get s).state == .exhausted
  | .journal, none => false
  | _, _ => true

/-- A region admits requests to its lines (R4). -/
def Region.admits (r : Region) : Bool :=
  r.change == .none && !r.degrading && r.effective != .hold

/-- A region's pending change can be applied (R7). -/
def changeReady (d : Device) (r : Region) : Bool :=
  r.change != .none && r.admitted == 0 && available d r r.requested && !r.degrading

/-- A region returns to JOURNAL by itself (R16). -/
def returnsToJournal (d : Device) (r : Region) : Bool :=
  r.requested == .journal && r.effective != .journal && r.change == .none && !r.degrading && available d r .journal

/-- Two ranges share a byte. -/
def rangesMeet (base length base' length' : Nat) : Bool :=
  decide (base < base' + length') && decide (base' < base + length)

/-- The overlap test of a range for region `r` passes (R9). -/
def overlapPasses (d : Device) (r : RegionNo) (base exponent : Nat) : Bool :=
  !meetsWindow d.winsel base (2 ^ exponent)
  && (indices 16).all fun i =>
    i == r || !(d.regions.get i).decodes
      || !rangesMeet base (2 ^ exponent) (d.regions.get i).base (2 ^ (d.regions.get i).exponent)

/-- The regions bound to a stream. -/
def boundRegions (d : Device) (s : StreamNo) : List RegionNo :=
  (indices 16).filter fun i => (d.regions.get i).stream == some s

/-- The regions a rollback of the stream holds: those with a resume mode (R13, R105). -/
def heldRegions (d : Device) (s : StreamNo) : List RegionNo :=
  (boundRegions d s).filter fun i => (d.regions.get i).resume.isSome

/-! ## Requests and the fence -/

/-- A request has been forwarded (section 2.2). -/
def Request.forwarded (q : Request) : Bool := q.state == .ready || q.state == .forwarded

/-- The fence is clear (R39). -/
def fenceClear (d : Device) : Bool :=
  d.path.requests.cells.all fun e =>
    match e with
    | none => true
    | some q => !(q.write && (match q.admission with | none => false | some n => decide (n < d.path.fence)))

/-- The hold limit in microseconds (R28). -/
def holdLimitMicros (d : Device) : Option Nat := d.command.holdLimit.map (2 ^ ·)

/-! ## Line locks -/

/-- A request of the part's own takes its line as a write does: WRITEs, and the READ of a descriptor update (R74). -/
def PortRequest.exclusive (r : PortRequest) : Bool :=
  r.write || (match r.job with | .updateRead _ => true | _ => false)

/-- Whether the asker wants the lock held rather than shared (R23). -/
def Asker.exclusive : Asker → Bool
  | .upstream _ w => w
  | .own r => r.exclusive

/-- The lock can be taken (R24). -/
def Hold.takeable (exclusive : Bool) : Hold → Bool
  | .free => true
  | .shared _ => !exclusive
  | .held => false

/-- The lock of a line; a line without lock state has a free lock and an empty queue (R23). -/
def lockOf (d : Device) (line : Nat) : LineLock := (d.path.locks.find? (·.line == line)).getD ⟨line, .free, []⟩

/-- The asker is an upstream request of a covered line, and covered traffic is held (R28, R165; log 37). -/
def Asker.heldBack (d : Device) : Asker → Bool
  | .upstream t _ => !normal d && (match d.path.requests.get t with
    | some q => q.covering.isSome
    | none => false)
  | .own _ => false

/-- The front of the line's queue can be granted (R24). -/
def grantable (d : Device) (l : LineLock) : Bool :=
  match l.queue with
  | [] => false
  | a :: _ => l.hold.takeable a.exclusive && !a.heldBack d

/-! ## The Arbiter -/

/-- The class of a request (Table 2-7). -/
def Job.portClass : Job → PortClass
  | .forward _ => .c5
  | .capture _ => .c3
  | .slotRecord _ _ | .markRecord _ _ => .c2
  | .journalRead _ _ | .restore _ | .scanRead _ _ _ => .c4
  | .discard c => c
  | _ => .c1

/-- What a request is for once its owner has abandoned it; a head-line write keeps its position until answered (R143). -/
def Job.ownerless : Job → Job
  | .headLine | .lateHeadLine => .lateHeadLine
  | j => .discard j.portClass

/-- The tag neither outstanding nor abandoned (R32). -/
def tagFree (d : Device) (t : MemTag) : Bool := d.arbiter.issued.all fun i => i.tag != t

/-- What a tag carries. -/
def issuedAt (d : Device) (t : MemTag) : Option Issued := d.arbiter.issued.find? (·.tag == t)

/-- The forwarded count (R32). -/
def forwardedCount (d : Device) : Nat := (d.arbiter.issued.filter (·.forwarded)).length

/-- The internal count (R32). -/
def internalCount (d : Device) : Nat := (d.arbiter.issued.filter (!·.forwarded)).length

/-- The tag rule of R32. -/
def tagRule (d : Device) (c : PortClass) : Bool :=
  decide (d.arbiter.issued.length < 64)
  && (if c == .c5 then decide (forwardedCount d < Config.forwardedBound)
      else decide (internalCount d < Config.internalBound))

/-- The device-check rule of R35. -/
def portOpen (d : Device) (r : PortRequest) : Bool :=
  normal d || r.job.portClass == .c1
  || (match r.job with
      | .forward t => match d.path.requests.get t with
        | some q => q.covering == none
        | none => false
      | _ => false)

/-- A waiting request is eligible (R34). -/
def eligible (d : Device) (r : PortRequest) : Bool := tagRule d r.job.portClass && portOpen d r

/-- The oldest eligible request of a class (R33). -/
def oldestOf (d : Device) (c : PortClass) : Option PortRequest :=
  d.arbiter.waiting.find? fun r => r.job.portClass == c && eligible d r

/-- The request the next grant goes to (R34). -/
def arbiterChoice (d : Device) : Option PortRequest :=
  let forwarded := oldestOf d .c5
  if d.arbiter.age == Config.ageBound && forwarded.isSome then forwarded
  else
    match oldestOf d .c1, oldestOf d .c2, oldestOf d .c3, oldestOf d .c4 with
    | some r, _, _, _ => some r
    | none, some r, _, _ => some r
    | none, none, some r, _ => some r
    | none, none, none, some r => some r
    | none, none, none, none => forwarded

/-- A line's lock belongs to a tag abandoned at the memory response limit (R30). -/
def abandonedOn (d : Device) (line : Nat) : Bool :=
  d.arbiter.issued.any fun i => i.abandoned && i.request.line == line

/-- A line is held by, or has in its queue, an upstream request of a covered region that has not been issued (R167). -/
def coveredOn (d : Device) (line : Nat) : Bool :=
  d.path.requests.cells.any fun e =>
    match e with
    | none => false
    | some q => q.line == line && q.covering.isSome && q.state != .waitMode && q.state != .forwarded

/-- The blocking test of R167. -/
def lineBlocked (d : Device) (line : Nat) : Bool := abandonedOn d line || coveredOn d line

/-! ## Capture -/

/-- The filter entry of a line (R43). -/
def filterEntry (d : Device) (line : Nat) : Option FilterEntry := d.capture.filter.find? (·.line == line)

/-- The lowest-numbered free slot (R47). -/
def freeSlotNo (d : Device) : Option SlotNo := (indices 16).find? fun k => (d.capture.slots.get k).isNone

/-- The slots in use with their numbers, ascending. -/
def slotsInUse (d : Device) : List (SlotNo × Slot) :=
  (indices 16).filterMap fun k => (d.capture.slots.get k).map fun c => (k, c)

/-- The slots of a stream. -/
def slotsOf (d : Device) (s : StreamNo) : List (SlotNo × Slot) := (slotsInUse d).filter fun p => p.2.stream == s

/-- The slot has no sequence yet: READING or WAITING_POSITION. -/
def Slot.unplaced (c : Slot) : Bool := c.phase == .reading || c.phase == .waitingPosition

/-- The slot a write owns. -/
def slotOwnedBy (d : Device) (t : ReqTag) : Option (SlotNo × Slot) := (slotsInUse d).find? fun p => p.2.owner == some t

/-- The capture read of a slot waits in C3. -/
def captureWaiting (d : Device) (k : SlotNo) : Bool := d.arbiter.waiting.any fun r => r.job == .capture k

/-- The capture read of a slot is on the memory port. -/
def captureIssued (d : Device) (k : SlotNo) : Bool := d.arbiter.issued.any fun i => i.request.job == .capture k

/-- Whether a filter entry belongs to a stream: its region is bound to it (R42). -/
def FilterEntry.ofStream (d : Device) (s : StreamNo) (e : FilterEntry) : Bool := (d.regions.get e.region).stream == some s

/-! ## Streams -/

/-- A stream is attached (R61). -/
def Stream.attached (x : Stream) : Bool := x.state != .detached

/-- A stream is lost (section 4.8). -/
def Stream.lost (x : Stream) : Bool := x.state == .broken || x.state == .faulted

/-- The states in which a contained check loses the stream (R77). -/
def Stream.losable (x : Stream) : Bool :=
  x.state == .active || x.state == .exhausted || x.state == .rollingBack || x.state == .detaching

/-- The engine rolls this stream back, in this phase. -/
def enginePhase (d : Device) (s : StreamNo) (p : Phase) : Bool := d.engine.owner == some s && d.engine.phase == p

/-- The states and phases in which a stream places records (R62). -/
def placesRecords (d : Device) (s : StreamNo) : Bool :=
  let x := d.streams.get s
  (x.state == .active || x.state == .detaching
    || (x.state == .rollingBack && enginePhase d s .holding)
    || (x.state == .opening && (match x.attach with | some a => a.firstAnchored | none => false)))
  && !x.entering && normal d

/-- A record to place (R62, R93). -/
inductive Placeable where
  | slot (k : SlotNo)
  | mark
deriving DecidableEq, Repr

/-- The record to place next, under the epoch boundary rule (R62, R93). -/
def recordToPlace (d : Device) (s : StreamNo) : Option Placeable :=
  let x := d.streams.get s
  let front := x.positions.head?.map fun p => Placeable.slot p.1
  match x.pendingMark with
  | none => front
  | some m =>
    match m.record with
    | some _ => front
    | none =>
      match x.positions.find? fun p => decide (p.2 < m.epoch) with
      | some p => some (.slot p.1)
      | none =>
        if (slotsOf d s).any fun p => decide (p.2.epoch < m.epoch) && p.2.unplaced then none else some .mark

/-- Every record placed has been acknowledged (R82, R107). -/
def Stream.settled (x : Stream) : Bool :=
  match x.committed, x.nextSequence with
  | some c, some n => c + 1 == n
  | _, _ => false

/-- No anchor write of the stream is waiting or outstanding (R82, R107). -/
def Stream.anchorIdle (x : Stream) : Bool := x.anchorWaiting.isNone && x.anchorOutstanding.isNone

/-- A descriptor fetch is in progress (R74). -/
def Stream.fetching (x : Stream) : Bool := match x.next with | .fetching _ => true | _ => false

/-- The history entry that holds a sequence (R109). -/
def segmentHolding (history : List Segment) (sequence : Nat) : Option Segment :=
  (history.filter fun h => decide (h.first ≤ sequence)).getLast?

/-- The address of a record (R109); 0 where no segment of the history holds it (log 44). -/
def recordAddress (x : Stream) (sequence : Nat) : Nat :=
  match segmentHolding x.history sequence with
  | some h => h.base + (sequence - h.first) * 128
  | none => 0

/-! ## The Report Unit -/

/-- The unacknowledged count (Table 9-1). -/
def unacknowledged (r : ReportUnit) : Nat :=
  (r.producer + 2 ^ (r.exponent + 1) - r.acknowledged) % 2 ^ (r.exponent + 1)

/-- The ring has space (Table 9-1). -/
def ringHasSpace (r : ReportUnit) : Bool := decide (unacknowledged r < 2 ^ r.exponent)

/-- NOTIFY_N is asserted (R161). -/
def notifyCondition (d : Device) : Bool :=
  (d.command.notifyEnable && d.report.ringSet && unacknowledged d.report != 0) || d.check.recordWritten.isSome

end Sys2Proof.Machine
end

