-- ==== Sys2Proof/Machine/Ops.lean ====
section
/-! DEFINITION. The named operations that the blocks share: changing one entry, asking for and releasing lines, offering and
withdrawing requests of the memory port, answering upstream, producing reports, and handing on a device check's withdrawals. -/
namespace Sys2Proof.Machine

/-! ## Changing one entry -/

/-- One region entry changed. -/
def Device.withRegion (d : Device) (r : RegionNo) (f : Region → Region) : Device :=
  { d with regions := d.regions.set r (f (d.regions.get r)) }

/-- One stream context changed. -/
def Device.withStream (d : Device) (s : StreamNo) (f : Stream → Stream) : Device :=
  { d with streams := d.streams.set s (f (d.streams.get s)) }

/-- One capture slot filled, changed or freed. -/
def Device.withSlot (d : Device) (k : SlotNo) (c : Option Slot) : Device :=
  { d with capture := { d.capture with slots := d.capture.slots.set k c } }

/-- One slot in use changed. -/
def Device.mapSlot (d : Device) (k : SlotNo) (f : Slot → Slot) : Device :=
  d.withSlot k ((d.capture.slots.get k).map f)

/-- The capture filter replaced. -/
def Device.withFilter (d : Device) (f : List FilterEntry) : Device := { d with capture := { d.capture with filter := f } }

/-- One pending request entry written. -/
def Device.withRequest (d : Device) (t : ReqTag) (q : Option Request) : Device :=
  { d with path := { d.path with requests := d.path.requests.set t q } }

/-- The state of a pending request. -/
def Device.setRequestState (d : Device) (t : ReqTag) (st : RequestState) : Device :=
  d.withRequest t ((d.path.requests.get t).map fun q => { q with state := st })

/-- The Arbiter changed. -/
def Device.withArbiter (d : Device) (f : Arbiter → Arbiter) : Device := { d with arbiter := f d.arbiter }

/-- The Command Unit changed. -/
def Device.withCommand (d : Device) (f : CommandUnit → CommandUnit) : Device := { d with command := f d.command }

/-- The Report Unit changed. -/
def Device.withReport (d : Device) (f : ReportUnit → ReportUnit) : Device := { d with report := f d.report }

/-- The Check Unit changed. -/
def Device.withCheck (d : Device) (f : CheckUnit → CheckUnit) : Device := { d with check := f d.check }

/-- The engine changed. -/
def Device.withEngine (d : Device) (f : Engine → Engine) : Device := { d with engine := f d.engine }

/-! ## Line locks (R23, R24) -/

/-- A line with neither a holder nor a waiter has no lock state (section 2.3). -/
def LineLock.idle (l : LineLock) : Bool := l.hold == .free && l.queue.isEmpty

/-- The lock of one line written, lines ascending, none idle. -/
def putLock (l : LineLock) : List LineLock → List LineLock
  | [] => if l.idle then [] else [l]
  | x :: rest =>
    if x.line < l.line then x :: putLock l rest
    else if x.line = l.line then (if l.idle then rest else l :: rest)
    else (if l.idle then x :: rest else l :: x :: rest)

/-- The lock of one line changed. -/
def Device.withLock (d : Device) (line : Nat) (f : LineLock → LineLock) : Device :=
  { d with path := { d.path with locks := putLock { f (lockOf d line) with line := line } d.path.locks } }

/-- The lock taken: one share more, or held. -/
def Hold.take (exclusive : Bool) : Hold → Hold
  | .shared n => if exclusive then .held else .shared (n + 1)
  | .free => if exclusive then .held else .shared 1
  | .held => .held

/-- The lock released: one share less, or free. -/
def Hold.release : Hold → Hold
  | .shared (n + 2) => .shared (n + 1)
  | _ => .free

/-- A share or a hold of a line is released; the queue is granted from its front by LINE_GRANT (R24). -/
def releaseLine (line : Nat) (d : Device) : Device := d.withLock line fun l => { l with hold := l.hold.release }

/-- The lock can be taken at the asking (R24). -/
def grantedAtOnce (l : LineLock) (exclusive : Bool) : Bool := l.queue.isEmpty && l.hold.takeable exclusive

/-- The lock of a line is taken. -/
def takeLine (line : Nat) (exclusive : Bool) (d : Device) : Device :=
  d.withLock line fun l => { l with hold := l.hold.take exclusive }

/-- An asker joins the back of the line's queue (R24). -/
def joinLine (line : Nat) (a : Asker) (d : Device) : Device := d.withLock line fun l => { l with queue := l.queue ++ [a] }

/-- A member leaves the line's queue (R24). -/
def leaveLine (line : Nat) (t : ReqTag) (d : Device) : Device :=
  d.withLock line fun l => { l with queue := l.queue.filter fun a => match a with | .upstream u _ => u != t | .own _ => true }

/-! ## The memory port (R33) -/

/-- A request enters its class (R33). -/
def enterClass (r : PortRequest) (d : Device) : Device := d.withArbiter fun a => { a with waiting := a.waiting ++ [r] }

/-- A request of the part's own is offered for issue: it asks for its line (R23), and enters its class once granted. -/
def offer (r : PortRequest) (d : Device) : Device :=
  if grantedAtOnce (lockOf d r.line) r.exclusive then enterClass r (takeLine r.line r.exclusive d)
  else joinLine r.line (.own r) d

/-- Requests offered in this order. -/
def offerAll (rs : List PortRequest) (d : Device) : Device := rs.foldl (fun d r => offer r d) d

/-- A request takes its place among requests in ascending address (R33). -/
def byAddress (r : PortRequest) (rs : List PortRequest) : List PortRequest :=
  rs.takeWhile (fun x => decide (x.line ≤ r.line)) ++ r :: rs.dropWhile fun x => decide (x.line ≤ r.line)

/-- A full-line read for `job`. -/
def readOf (job : Job) (line : Nat) : PortRequest := ⟨job, line, false, 0, 0⟩

/-- A full-line write for `job`, with every mask byte set (Table 2-6). -/
def writeOf (job : Job) (line : Nat) (data : Line) : PortRequest := ⟨job, line, true, fullMask, data⟩

/-- A job whose request holds a lock of its own: all but the capture read (R25). -/
def Job.ownsLine : Job → Bool
  | .capture _ => false
  | _ => true

/-- The part's own requests that `p` names leave their line queues (R24). -/
def leaveQueues (p : Job → Bool) (d : Device) : Device :=
  { d with path := { d.path with
      locks := (d.path.locks.map fun l =>
        { l with queue := l.queue.filter fun a => match a with | .own r => !p r.job | .upstream _ _ => true }).filter
          fun l => !l.idle } }

/-- The part's own requests that `p` names and that are not yet issued are withdrawn: they leave their line queues, or their
class with the line they hold (R33). -/
def withdraw (p : Job → Bool) (d : Device) : Device :=
  let gone := d.arbiter.waiting.filter fun r => p r.job
  let d := leaveQueues p (d.withArbiter fun a => { a with waiting := a.waiting.filter fun r => !p r.job })
  gone.foldl (fun d r => if r.job.ownsLine then releaseLine r.line d else d) d

/-- A request with its owner gone. -/
def PortRequest.ownerless (r : PortRequest) : PortRequest := { r with job := r.job.ownerless }

/-- The part's own requests that `p` names and that are issued lose their owner: their answers will be discarded. -/
def disown (p : Job → Bool) (d : Device) : Device :=
  d.withArbiter fun a => { a with issued := a.issued.map fun i =>
    if (p i.request.job) = true then { i with request := i.request.ownerless } else i }

/-- The part's own requests that `p` names lose their owner wherever they stand, and are still issued (R126). -/
def discardLater (p : Job → Bool) (d : Device) : Device :=
  disown p { d with
    arbiter := { d.arbiter with waiting := d.arbiter.waiting.map fun r => if (p r.job) = true then r.ownerless else r }
    path := { d.path with locks := d.path.locks.map fun l => { l with queue := l.queue.map fun a =>
      match a with
      | .own r => if (p r.job) = true then .own r.ownerless else a
      | .upstream _ _ => a } } }

/-- Requests abandoned by their owner: withdrawn where waiting, discarded on arrival where issued. -/
def abandon (p : Job → Bool) (d : Device) : Device := disown p (withdraw p d)

/-- A memory tag returns to the pool (R32). -/
def freeTag (t : MemTag) (d : Device) : Device :=
  (d.withArbiter fun a => { a with issued := a.issued.filter fun i => i.tag != t }).withCheck
    fun c => { c with holdSet := c.holdSet.filter (· != t) }

/-- A held write enters READY: it waits in class C5 under the line it holds (R29). -/
def forward (t : ReqTag) (d : Device) : Device :=
  match d.path.requests.get t with
  | none => d
  | some q => enterClass ⟨.forward t, q.line, q.write, q.mask, q.data⟩ (d.setRequestState t .ready)

/-! ## Answers upstream (R20, R26) -/

/-- A response is given upstream: the entry is removed, and the admitted count of its region falls if it was admitted
(R4, R20). -/
def respond (t : ReqTag) (answer : Response) (d : Device) : Device :=
  match d.path.requests.get t with
  | none => d
  | some q =>
    let d := { d with
      path := { d.path with requests := d.path.requests.set t none, waitMode := d.path.waitMode.filter (· != t) }
      responses := d.responses ++ [(t, answer)] }
    match q.covering with
    | some r => if q.state == .waitMode then d else d.withRegion r fun e => { e with admitted := e.admitted - 1 }
    | none => d

/-! ## Reports (R158, R159) -/

/-- The place of an asynchronous kind among the ten counts of the merged summary, in the order of the codes 4 to 13. -/
def asyncIndex : ReportKind → Option (Fin 10)
  | .regionDegraded => some 0
  | .segmentEntered => some 1
  | .segmentFreed => some 2
  | .markRetired => some 3
  | .streamExhausted => some 4
  | .streamLost => some 5
  | .filterSaturated => some 6
  | .captureFailed => some 7
  | .check => some 8
  | .windowMisuse => some 9
  | _ => none

/-- A report adds to the merged summary (R158). -/
def Summary.add (m : Summary) (i : Fin 10) (stream : Nat) : Summary where
  mask := if h : stream < 4 then m.mask.set ⟨stream, h⟩ true else m.mask
  counts := m.counts.set i (min 255 (m.counts.get i + 1))
  total := min Config.topNumber (m.total + 1)

/-- The Report Unit takes a report (R158). -/
def ReportUnit.push (r : Report) (u : ReportUnit) : ReportUnit :=
  match asyncIndex r.kind with
  | some i =>
    if u.queue.length < Config.crowdedQueue then { u with queue := u.queue ++ [r] }
    else { u with summary := u.summary.add i r.stream }
  | none => { u with queue := u.queue ++ [r] }

/-- A report is handed to the Report Unit (R158). -/
def pushReport (r : Report) (d : Device) : Device := d.withReport (ReportUnit.push r)

/-- Four bytes of counts, lowest first. -/
def fourCounts (m : Summary) (a b c e : Fin 10) : Nat :=
  m.counts.get a + m.counts.get b * 2 ^ 8 + m.counts.get c * 2 ^ 16 + m.counts.get e * 2 ^ 24

/-- The REPORTS_MERGED report of a summary (Table 9-2). -/
def mergedReport (m : Summary) : Report where
  kind := .reportsMerged
  first := m.total
  second := (indices 4).foldl (fun acc s => acc + (if m.mask.get s then 2 ^ s.1 else 0)) 0
  label := fourCounts m 0 1 2 3
  sequence := fourCounts m 4 5 6 7
  epoch := m.counts.get 8 + m.counts.get 9 * 2 ^ 8

/-- R159, applied when a report has left the queue. -/
def mergeSummary (d : Device) : Device :=
  if occupancy d < Config.crowdedQueue && d.report.summary.total != 0 then
    (pushReport (mergedReport d.report.summary) d).withReport fun u => { u with summary := Summary.empty }
  else d

/-- The chain state after the COMMAND_DONE of a tag (R146). -/
def chainAfter (c : ChainState) (tag : BitVec 16) (status : Status) : ChainState :=
  match c with
  | .waiting w => if w = tag then (if status = .ok then .following else .skipping) else c
  | _ => c

/-- A COMMAND_DONE is produced: it enters the queue, and ends a chain wait for its tag (R145, R146). -/
def commandDone (r : Report) (d : Device) : Device :=
  (pushReport { r with kind := .commandDone } d).withCommand fun c => { c with chain := chainAfter c.chain r.tag r.status }

/-- A COMMAND_DONE for a stream's command. -/
def streamDone (s : StreamNo) (r : Report) (d : Device) : Device := commandDone { r with stream := s.1 } d

/-- The WINDOW_MISUSE report of an ignored value (R140, R154). -/
def valueMisuse (offset : Nat) (value : BitVec 64) (d : Device) : Device :=
  pushReport { kind := .windowMisuse, address := windowBase d.winsel + offset, first := 8, second := value.toNat } d

/-! ## The head-line write (R143) -/

/-- The head-line write's line. -/
def headLineAddress (d : Device) : Nat := windowBase d.winsel + 0x40

/-- The waiting head-line write asks for its line when none is outstanding (R143). -/
def tryHeadLineWriteIssue (d : Device) : Option Device :=
  if d.command.headWaiting && !d.command.headAsked && !d.command.headOutstanding then
    some (offer (writeOf .headLine (headLineAddress d) 0) (d.withCommand fun c => { c with headAsked := true }))
  else none

/-- A head-line write is offered: it joins the waiting one, or becomes it (R143). -/
def offerHeadLine (d : Device) : Device :=
  let d := d.withCommand fun c => { c with headWaiting := true }
  (tryHeadLineWriteIssue d).getD d

end Sys2Proof.Machine
end

