-- ==== Sys2Proof/Machine/AnchorLogic.lean ====
section
/-! DEFINITION. The anchor logic's two write positions (07 section 7.2): what an anchor write carries, its offer, its issue,
and its move of generation and newest copy. Whom an answer tells is in Answers.lean. -/
namespace Sys2Proof.Machine

/-- The rollback target of the occasions, present for a pending anchor (Table 7-2). -/
def pendingTarget : List Occasion → Option Nat
  | [] => none
  | .pending e :: _ => some e
  | _ :: rest => pendingTarget rest

/-- The current epoch at the loss, present for a stream-loss invalidation. -/
def lossEpoch : List Occasion → Option Nat
  | [] => none
  | .loss e :: _ => some e
  | _ :: rest => lossEpoch rest

/-- The contents of an anchor write as the context stands (R125), with the flags of its occasions (Table 7-2). An absent committed
sequence counts as 0, and an absent epoch is written as 0 (log 55). -/
def anchorContents (x : Stream) (occasions : List Occasion) : AnchorContents where
  stamp := x.stamp
  cleanDetach := occasions.contains .detach
  invalidated := false
  rollbackPending := (pendingTarget occasions).isSome
  target := (pendingTarget occasions).getD 0
  epoch := x.epoch.getD 0 - (if x.pendingMark.isSome then 1 else 0)
  nextSequence := x.committed.getD 0 + 1
  marks := x.marks
  history := x.history
  policy := x.policy
  stallLimit := x.stallLimit

/-- The contents of an invalidation write (R79, R125, R167): the flag, an empty epoch table, and no history entry whose first
sequence lies above the committed sequence plus one. A lost stream has no pending mark any more, so its epoch is written as it
stands (log 69). -/
def invalidationContents (x : Stream) : AnchorContents :=
  { anchorContents x [] with
    invalidated := true
    marks := []
    history := x.history.filter fun h => decide (h.first ≤ x.committed.getD 0 + 1) }

/-- An anchor write is offered: it joins the waiting write, or becomes it (R124). A waiting invalidation takes no offer. -/
def joinAnchor (o : Occasion) (x : Stream) : Stream :=
  match x.anchorWaiting with
  | none => { x with anchorWaiting := some ⟨[o], none⟩ }
  | some w =>
    match w.frozen with
    | none => { x with anchorWaiting := some { w with occasions := w.occasions ++ [o] } }
    | some _ => x

/-- An anchor write of the stream is offered (R124). -/
def offerAnchor (s : StreamNo) (o : Occasion) (d : Device) : Device := d.withStream s (joinAnchor o)

/-- An invalidation is offered with its address and contents as they stand (R125). -/
def freezeInvalidation (o : Occasion) (x : Stream) : Stream :=
  { x with anchorWaiting := some ⟨[o], some (x.anchorAddress, invalidationContents x)⟩ }

/-- The conditions of R125 for a waiting write. -/
def anchorIssuable (d : Device) (x : Stream) (w : AnchorOffer) : Bool :=
  x.anchorOutstanding.isNone
  && (match w.frozen with
      | some _ => true
      | none => decide ((x.history.getLast?.map (·.first)).getD 0 ≤ x.committed.getD 0 + 1))
  && (normal d || w.occasions.contains .check)

/-- Freed members wait on the write now issued (R90). -/
def FreedSegment.issued (f : FreedSegment) : FreedSegment :=
  if f.anchor = .waiting then { f with anchor := .outstanding } else f

/-- Freed members' write is acknowledged (R90). -/
def FreedSegment.acknowledged (f : FreedSegment) : FreedSegment :=
  if f.anchor = .outstanding then { f with anchor := .acknowledged } else f

/-- The sixteen line writes of a copy (R126). -/
def anchorWrites (s : StreamNo) (address : Nat) (image : BitVec 8192) : List PortRequest :=
  (indices 16).map fun i => writeOf (.anchorWrite s i) (address + 64 * i.1) (anchorLine image i)

/-- The address that a waiting write is issued to: that of the copy other than the newest (R126). -/
def anchorTarget (x : Stream) (w : AnchorOffer) : Nat := copyAddress ((w.frozen.map (·.1)).getD x.anchorAddress) x.newest.other

/-- ANCHOR_WRITE_ISSUE: the waiting write is issued to the copy other than the newest (R125, R126). -/
def tryAnchorWriteIssue (s : StreamNo) (d : Device) : Option Device :=
  let x := d.streams.get s
  match x.anchorWaiting with
  | none => none
  | some w =>
    if anchorIssuable d x w then
      let address := anchorTarget x w
      let contents := (w.frozen.map (·.2)).getD (anchorContents x w.occasions)
      let d := d.withStream s fun x => { x with
        anchorWaiting := none
        anchorOutstanding := some ⟨w.occasions, x.newest.other, address, x.generation + 1, 0⟩
        invalidation := if (lossEpoch w.occasions).isSome then .outstanding else x.invalidation
        freed := x.freed.map FreedSegment.issued }
      some (offerAll (anchorWrites s address (anchorImage contents (x.generation + 1))) d)
    else none

/-- The address of a stream's waiting anchor write, where it can be issued now. -/
def anchorDue (d : Device) (s : StreamNo) : Option Nat :=
  match (d.streams.get s).anchorWaiting with
  | some w => if anchorIssuable d (d.streams.get s) w then some (anchorTarget (d.streams.get s) w) else none
  | none => none

/-- The stream with the lower address, the first of two that share one. -/
def lowerDue (best : Option (Nat × StreamNo)) (p : Nat × StreamNo) : Option (Nat × StreamNo) :=
  match best with
  | some b => if p.1 < b.1 then some p else some b
  | none => some p

/-- The stream whose waiting anchor write is issued next: writes due at one event enter their class in ascending address (R33);
of two at one address the lower stream's comes first (log 2). -/
def nextAnchorIssue (d : Device) : Option StreamNo :=
  (((indices 4).filterMap fun s => (anchorDue d s).map fun a => (a, s)).foldl lowerDue none).map (·.2)

/-- The acknowledged write moves the generation and the newest copy, and leaves its position (R126). -/
def anchorAcknowledged (w : AnchorWrite) (x : Stream) : Stream :=
  { x with
    generation := w.generation
    newest := w.copy
    anchorOutstanding := none
    freed := x.freed.map FreedSegment.acknowledged }

/-- The jobs of the lines of a stream's anchor write. -/
def isAnchorWriteOf (s : StreamNo) : Job → Bool
  | .anchorWrite s' _ => s' == s
  | _ => false

/-- The lines of an anchor write of the stream that memory has still to answer. -/
def unansweredAnchorLines (d : Device) (s : StreamNo) : List Nat :=
  ((d.arbiter.waiting.filter fun r => isAnchorWriteOf s r.job).map (·.line))
  ++ ((d.arbiter.issued.filter fun i => isAnchorWriteOf s i.request.job).map (·.request.line))
  ++ (d.path.locks.filter fun l => l.queue.any fun a => match a with
      | .own r => isAnchorWriteOf s r.job
      | .upstream _ _ => false).map (·.line)

end Sys2Proof.Machine
end

