-- ==== Sys2Proof/Machine/CheckUnit.lean ====
section
/-! DEFINITION. The Check Unit (Chapter 10): device-check handling state by state, and the device clear. -/
namespace Sys2Proof.Machine

/-! ## The device clear (R168) -/

/-- A job of the part's own. -/
def Job.own : Job → Bool
  | .forward _ => false
  | _ => true

/-- The line of a held write that is answered upstream is released, or passes to its slot while the slot's capture read is
outstanding (R25). -/
def releaseHeld (t : ReqTag) (line : Nat) (d : Device) : Device :=
  match slotOwnedBy d t with
  | some (k, c) => if c.phase = .reading && captureIssued d k then d else releaseLine line d
  | none => releaseLine line d

/-- RETRY for one request that is not forwarded (R40). -/
def retryUnforwarded (d : Device) (t : ReqTag) : Device :=
  match d.path.requests.get t with
  | none => d
  | some q =>
    match q.state with
    | .waitMode => respond t .retry d
    | .waitOrder => respond t .retry (leaveLine q.line t d)
    | .waitSlot => respond t .retry (releaseLine q.line d)
    | .capturing => respond t .retry (releaseHeld t q.line d)
    | .ready | .forwarded => d

/-- The device clear's values of a region entry (R2). -/
def Region.cleared (r : Region) : Region :=
  { r with stream := none, requested := .off, effective := .off, change := .none, resume := none, degrading := false }

/-- The device clear's values of the Command Unit (R139, R143): of the head-line write position, the outstanding write is kept. -/
def CommandUnit.cleared (c : CommandUnit) : CommandUnit :=
  { c with ringSet := false, head := 0, tail := 0, fetch := .idle, chain := .none,
           headWaiting := false, headAsked := false }

/-- The device clear's values of the Report Unit (R153). -/
def ReportUnit.cleared (u : ReportUnit) : ReportUnit :=
  { u with ringSet := false, producer := 0, acknowledged := 0, sequence := 0, queue := [], writing := false,
           summary := Summary.empty }

/-- The device clear's values of the Check Unit (R168): the clear count rises, record written is kept. -/
def CheckUnit.cleared (c : CheckUnit) : CheckUnit :=
  { CheckUnit.cold with clearCount := c.clearCount + 1, recordWritten := c.recordWritten }

/-- Every request that has not been forwarded is answered RETRY, in ascending requester tag, and the slot queue is emptied
(R40, R47). -/
def retryAll (d : Device) : Device :=
  (indices 64).foldl retryUnforwarded { d with capture := { d.capture with queue := [] } }

/-- The device clear, at one event, block by block in the order of the table of R168. -/
def deviceClear (d : Device) : Device :=
  let d := { d with regions := d.regions.map Region.cleared }
  let d := abandon Job.own (retryAll d)
  { d with
    arbiter := { d.arbiter with age := 0 }
    capture := Capture.cold
    streams := Table.fill 4 Stream.cold
    engine := Engine.cold
    command := d.command.cleared
    report := d.report.cleared
    check := d.check.cleared }

/-! ## The states of the handling (Table 10-3) -/

/-- The record number of this handling (section 10.2). -/
def recordNumber (d : Device) : BitVec 32 := d.check.clearCount + 1

/-- The address of the fault record's first line. -/
def faultFirstAddress (d : Device) : Nat := windowBase d.winsel + 0x100

/-- The address of the fault record's closing line. -/
def faultClosingAddress (d : Device) : Nat := windowBase d.winsel + 0x140

/-- Entry to DEVICE_CLOSE (R168). -/
def enterClose (d : Device) : Device :=
  let d := d.withCheck fun c => { c with state := .close, stages := Table.fill 4 .none }
  if abandonedOn d (faultClosingAddress d) then deviceClear d
  else offer (writeOf .faultClosing (faultClosingAddress d) 0) d

/-- A check names this stream's context (R167). -/
def contextFailed (c : CheckUnit) (s : StreamNo) : Bool :=
  c.cause == some (.internalState, .streamContext s) || c.second == some (.internalState, .streamContext s)

/-- An ATTACH that has not yet judged both anchor copies, by the words of R167; one whose failure has been dropped judges none any
more (R163). One that has judged them but whose context does not hold their generation and newest copy is not among them
(log 48). -/
def attachUnjudged (x : Stream) : Bool :=
  (x.state == .opening || x.state == .resuming) && (match x.attach with | some a => !a.judged | none => false)

/-- The lines of the copy an invalidation would be written to (R126). -/
def invalidationLines (x : Stream) : List Nat :=
  (indices 16).map fun i => copyAddress x.anchorAddress x.newest.other + 64 * i.1

/-- The result and the stage of one stream's invalidation. -/
def setInvalidation (s : StreamNo) (r : CheckResult) (g : InvalidateStage) (d : Device) : Device :=
  d.withCheck fun c => { c with results := c.results.set s r, stages := c.stages.set s g }

/-- The invalidation is offered, unless a line of its copy meets the blocking test (R167). What it carries for a stream that has
become DETACHED since the snapshot is log 55. -/
def offerInvalidation (s : StreamNo) (d : Device) : Device :=
  if (invalidationLines (d.streams.get s)).any (lineBlocked d) then setInvalidation s .notAttempted .none d
  else setInvalidation s .notAttempted .offered (d.withStream s (freezeInvalidation .check))

/-- What DEVICE_INVALIDATE does at its entry for one stream (R167). A lost stream that was detached before its own invalidation
failed is not in the snapshot, and stays NOT_ATTEMPTED (log 51). One whose own invalidation failed as a second check has a write
offered as any other (log 71). The order of the kinds for which none is offered is log 72. -/
def startInvalidation (d : Device) (s : StreamNo) : Device :=
  let d := d.withStream s fun x => { x with anchorWaiting := none }
  if !(d.check.snapshot.get s).1 then d
  else if contextFailed d.check s then d
  else if d.check.lossStream = some s then setInvalidation s .notInvalidated .none d
  else if attachUnjudged (d.streams.get s) then d
  else if (d.streams.get s).anchorOutstanding.isSome then
    if (unansweredAnchorLines d s).any (lineBlocked d) then d else setInvalidation s .notAttempted .awaiting d
  else offerInvalidation s d

/-- Every invalidation offered or awaited has its result (R167). -/
def invalidationsDone (d : Device) : Bool := d.check.stages.cells.all (· == .none)

/-- Entry to DEVICE_INVALIDATE (R167). -/
def enterInvalidate (d : Device) : Device :=
  let d := (indices 4).foldl startInvalidation (d.withCheck fun c => { c with state := .invalidate })
  if invalidationsDone d then enterClose d else d

/-- DEVICE_INVALIDATE ends when every result is known (R167). -/
def invalidationEnd (d : Device) : Device :=
  if d.check.state = .invalidate && invalidationsDone d then enterClose d else d

/-- The stream snapshot (R166). -/
def takeSnapshot (d : Device) : Table (Bool × Nat) 4 := d.streams.map fun x => (x.attached, x.anchorAddress)

/-- Entry to DEVICE_RECORD (R166). -/
def enterRecord (d : Device) : Device :=
  let d := d.withCheck fun c => { c with state := .record, snapshot := takeSnapshot d }
  if abandonedOn d (faultFirstAddress d) then enterInvalidate d
  else offer (writeOf .faultFirst (faultFirstAddress d) (faultFirstLine (recordNumber d).toNat d.check.snapshot)) d

/-- HOLD_SET_DRAINED: the hold set is empty (R165). It follows the event that emptied the set, so a second check of that event is
noted in DEVICE_HOLD (R169, log 56). -/
def tryHoldSetDrained (d : Device) : Option Device :=
  if d.check.state = .hold && d.check.holdSet.isEmpty then some (enterRecord d) else none

/-! ## A device check is handed over -/

/-- The classes whose waiting requests their owners withdraw when a handling begins (R59, R84, R117, R165). -/
def withdrawnAtHold (j : Job) : Bool :=
  j.portClass == .c2 || j.portClass == .c3 || j.portClass == .c4

/-- The engine's requests, whose answers are discarded during the handling (R117, R163), and the resume scan's, whose answers the
model discards too, since the scan stands still (R84, R137, log 57). -/
def walkOrScan : Job → Bool
  | .journalRead _ _ | .restore _ | .scanRead _ _ _ => true
  | _ => false

/-- The handling begins (R165). `loss` is the stream whose own invalidation write failed (R167). Requests of C2, C3 and C4 that
still wait for their lines are withdrawn with those that wait in their classes (log 41). -/
def beginHandling (cause : DeviceCause) (detail : CheckDetail) (loss : Option StreamNo) (d : Device) : Device :=
  let tags := (d.arbiter.issued.filter fun i => !i.forwarded && !i.abandoned).map (·.tag)
  let d := d.withCheck fun c => { c with
    state := .hold, cause := some (cause, detail), second := none, holdSet := tags
    results := Table.fill 4 .notAttempted, stages := Table.fill 4 .none, lossStream := loss }
  disown walkOrScan (withdraw withdrawnAtHold d)

/-- The second cause takes the first further check (R169). -/
def noteSecond (cause : DeviceCause) (detail : CheckDetail) (d : Device) : Device :=
  d.withCheck fun c => { c with second := match c.second with | none => some (cause, detail) | some x => some x }

/-- A line of the stream's invalidation write is issued or acknowledged (R169). -/
def invalidationIssued (d : Device) (s : StreamNo) : Bool :=
  d.arbiter.issued.any (fun i => isAnchorWriteOf s i.request.job)
  || (match (d.streams.get s).anchorOutstanding with | some w => decide (0 < w.acknowledged) | none => false)

/-- One stream's invalidation is abandoned by a second check (R169). A stream whose outstanding anchor write is only awaited keeps
NOT_ATTEMPTED, also where that write is its own invalidation after a loss and its failure is the second check (log 60). -/
def abandonInvalidation (d : Device) (s : StreamNo) : Device :=
  match d.check.stages.get s with
  | .none => d
  | .awaiting => setInvalidation s .notAttempted .none d
  | .offered =>
    let d := setInvalidation s (if invalidationIssued d s then .notInvalidated else .notAttempted) .none d
    (abandon (isAnchorWriteOf s) d).withStream s fun x => { x with anchorWaiting := none, anchorOutstanding := none }

/-- A second check acts by the state it finds (R169). One that ends DEVICE_RECORD leaves NOT_ATTEMPTED also to the stream whose own
invalidation caused the handling (log 70), or whose own invalidation's failure is the second check (log 71). -/
def secondCheck (cause : DeviceCause) (detail : CheckDetail) (d : Device) : Device :=
  match d.check.state with
  | .record => enterClose (abandon (· == .faultFirst) (noteSecond cause detail d))
  | .invalidate => enterClose ((indices 4).foldl abandonInvalidation (noteSecond cause detail d))
  | .hold => noteSecond cause detail d
  | .close | .normal => d

/-- A device check is handed to the Check Unit (R162, R165, R169). -/
def deviceCheckFor (loss : Option StreamNo) (cause : DeviceCause) (detail : CheckDetail) (d : Device) : Device :=
  if normal d then beginHandling cause detail loss d else secondCheck cause detail d

/-- A device check that no lost stream's invalidation caused. -/
def deviceCheck (cause : DeviceCause) (detail : CheckDetail) (d : Device) : Device := deviceCheckFor none cause detail d

/-- A structure's entry fails its check code as the step reads it: after the step's own effect a device check is handed over
(R162, log 10). -/
def internalFailure (failed : Option CheckDetail) (d : Device) : Device :=
  match failed with
  | some f => deviceCheck .internalState f d
  | none => d

/-! ## FAULT_ACK (R170) -/

/-- A FAULT_ACK value is judged (R170). -/
def judgeFaultAck (value : BitVec 64) (d : Device) : Device :=
  if d.check.recordWritten.map BitVec.toNat = some value.toNat then d.withCheck fun c => { c with recordWritten := none }
  else valueMisuse 0x20 value d

/-- The answer to the first line of the fault record, DONE or ERROR (R166). -/
def faultFirstAnswered (d : Device) : Device := if d.check.state = .record then enterInvalidate d else d

/-- The answer to the closing line: a DONE records the number, then the device clear is carried out (R168), before anything queued on
the line is granted: an order of the model's own (log 75). -/
def faultClosingAnswered (done : Bool) (d : Device) : Device :=
  deviceClear (if done then d.withCheck fun c => { c with recordWritten := some (recordNumber d) } else d)

end Sys2Proof.Machine
end

