-- ==== Sys2Proof/Machine/CaptureUnit.lean ====
section
/-! DEFINITION. The Capture Unit (Chapter 3): filter, slots, slot queue, and what becomes of held writes. -/
namespace Sys2Proof.Machine

/-! ## The filter (R42 to R45) -/

/-- An entry takes its place in ascending line order. -/
def insertEntry (e : FilterEntry) : List FilterEntry → List FilterEntry
  | [] => [e]
  | x :: rest => if e.line < x.line then e :: x :: rest else x :: insertEntry e rest

/-- Entries are removed; slots that removed PENDING entries named lose their link (R45, Table 3-2). -/
def removeEntries (p : FilterEntry → Bool) (d : Device) : Device :=
  let d' := (d.capture.filter.filter p).foldl
    (fun d e => match e.state with
      | .pending k => d.mapSlot k fun c => { c with linked := false }
      | .captured => d) d
  d'.withFilter (d.capture.filter.filter fun e => !p e)

/-- The entries of a stream are removed (R45). -/
def removeStreamEntries (s : StreamNo) (d : Device) : Device := removeEntries (FilterEntry.ofStream d s) d

/-- The entry that names a slot is removed (R45). -/
def removeSlotEntry (k : SlotNo) (d : Device) : Device := removeEntries (fun e => e.state == .pending k) d

/-! ## Slots (R46, R47) -/

/-- The write's line enters the filter, or the filter is saturated for this capture (R44). -/
def enterFilter (k : SlotNo) (c : Slot) (d : Device) : Device :=
  if d.capture.filter.length < Config.filterEntries then
    d.withFilter (insertEntry ⟨c.line, c.region, .pending k⟩ d.capture.filter)
  else
    let held := (d.capture.filter.filter (FilterEntry.ofStream d c.stream)).length
    let d' := d.withStream c.stream fun x => { x with saturated := true }
    if (d.streams.get c.stream).saturated then d'
    else pushReport { kind := .filterSaturated, stream := c.stream.1, region := c.region.1, epoch := c.epoch,
                      address := c.line, first := held, second := Config.filterEntries } d'

/-- The slot as a write receives it (R47 step 1). -/
def filledSlot (d : Device) (t : ReqTag) (q : Request) (s : StreamNo) : Slot where
  owner := some t
  line := q.line
  region := q.covering.getD 0
  stream := s
  epoch := (d.streams.get s).epoch.getD 0
  linked := decide (d.capture.filter.length < Config.filterEntries)
  image := none
  sequence := none
  address := none
  linesWritten := 0
  linesAnswered := 0
  lost := false
  phase := .reading

/-- A write receives slot `k` (R47). The capture read is offered while the Check Unit is NORMAL (R59). -/
def takeSlot (t : ReqTag) (k : SlotNo) (d : Device) : Device :=
  match d.path.requests.get t with
  | none => d
  | some q =>
    match q.stream with
    | none => d
    | some s =>
      let c := filledSlot d t q s
      let d := enterFilter k c ((d.withSlot k (some c)).setRequestState t .capturing)
      if normal d then enterClass (readOf (.capture k) q.line) d else d

/-- SLOT_QUEUE_SERVICE: a free slot goes to the front of the slot queue (R47), in NORMAL (R28, R165; log 37). -/
def trySlotQueueService (k : SlotNo) (d : Device) : Option Device :=
  match d.capture.slots.get k, d.capture.queue with
  | none, t :: rest =>
    if normal d then some (takeSlot t k { d with capture := { d.capture with queue := rest } }) else none
  | _, _ => none

/-- A slot becomes free, and goes to the front of the slot queue (R47). -/
def freeSlot (k : SlotNo) (d : Device) : Device :=
  let d := d.withSlot k none
  (trySlotQueueService k d).getD d

/-! ## A journaled write that has its line (R48) -/

/-- The lookup and what follows it (R48). -/
def handToCapture (t : ReqTag) (line : Nat) (d : Device) : Device :=
  match filterEntry d line with
  | none =>
    match freeSlotNo d with
    | some k => takeSlot t k d
    | none => { d.setRequestState t .waitSlot with capture := { d.capture with queue := d.capture.queue ++ [t] } }
  | some e =>
    match e.state with
    | .captured => forward t d
    | .pending k => (d.mapSlot k fun c => { c with owner := some t }).setRequestState t .capturing

/-! ## Ends of a capture -/

/-- The owner of a slot is answered and its line released. -/
def answerOwner (owner : Option ReqTag) (line : Nat) (a : Response) (d : Device) : Device :=
  match owner with
  | none => d
  | some t => releaseLine line (respond t a d)

/-- A slot leaves its stream's position queue (R62). -/
def leavePositions (k : SlotNo) (s : StreamNo) (d : Device) : Device :=
  d.withStream s fun x => { x with positions := x.positions.filter fun p => p.1 != k }

/-- A slot is cancelled (R55). -/
def cancelSlot (k : SlotNo) (d : Device) : Device :=
  match d.capture.slots.get k with
  | none => d
  | some c =>
    match c.phase with
    | .waitingPosition =>
      freeSlot k (leavePositions k c.stream (removeSlotEntry k (answerOwner c.owner c.line .retry d)))
    | .reading =>
      if captureIssued d k then
        let d := match c.owner with | some t => respond t .retry d | none => d
        (removeSlotEntry k d).withSlot k (some { c with owner := none, linked := false, phase := .cancelled })
      else
        freeSlot k (withdraw (· == .capture k) (removeSlotEntry k (answerOwner c.owner c.line .retry d)))
    | .writing | .done | .cancelled => d

/-- A capture read failure (R57). -/
def captureFailure (k : SlotNo) (c : Slot) (d : Device) : Device :=
  let d := freeSlot k (removeSlotEntry k (answerOwner c.owner c.line .error d))
  if normal d then
    pushReport { kind := .captureFailed, status := .failed, stream := c.stream.1, region := c.region.1, epoch := c.epoch,
                 address := c.line, first := (c.owner.map (·.1)).getD 0 } d
  else d

/-- The answer to a capture read (R49, R50, R57). -/
def captureAnswered (k : SlotNo) (line : Nat) (a : MemAnswer) (d : Device) : Device :=
  match d.capture.slots.get k with
  | none => releaseLine line d
  | some c =>
    match c.phase, a with
    | .reading, .data image =>
      (d.withSlot k (some { c with image := some image, phase := .waitingPosition })).withStream c.stream
        fun x => { x with positions := x.positions ++ [(k, c.epoch)] }
    | .reading, _ => captureFailure k c d
    | .cancelled, _ => freeSlot k (releaseLine line d)
    | _, _ => d

/-- An abandoned capture read is answered: its tag's lock goes, unless the line is still its write's (R25, R30). -/
def abandonedCaptureAnswered (k : SlotNo) (line : Nat) (d : Device) : Device :=
  match d.capture.slots.get k with
  | none => releaseLine line d
  | some c =>
    match c.phase with
    | .cancelled => freeSlot k (releaseLine line d)
    | _ => if c.owner.isSome then d else releaseLine line d

/-- Slots in ascending sequence. -/
def insertBySequence (p : SlotNo × Slot) : List (SlotNo × Slot) → List (SlotNo × Slot)
  | [] => [p]
  | x :: rest => if p.2.sequence.getD 0 < x.2.sequence.getD 0 then p :: x :: rest else x :: insertBySequence p rest

/-- The slots of the stream in DONE that a committed sequence covers, in ascending sequence (R52). -/
def releasable (d : Device) (s : StreamNo) (committed : Nat) : List (SlotNo × Slot) :=
  ((slotsOf d s).filter fun p => p.2.phase == .done && decide (p.2.sequence.getD 0 ≤ committed)).foldr insertBySequence []

/-- One slot is released (R52). -/
def releaseSlot (d : Device) (p : SlotNo × Slot) : Device :=
  let d := if p.2.linked then
      d.withFilter (d.capture.filter.map fun e => if e.state = .pending p.1 then { e with state := .captured } else e)
    else d
  let d := match p.2.owner with | some t => forward t d | none => d
  freeSlot p.1 d

/-- The stream's committed sequence has risen (R52). -/
def releaseCommitted (s : StreamNo) (committed : Nat) (d : Device) : Device :=
  (releasable d s committed).foldl releaseSlot d

/-! ## Stream loss, DETACH, rollback start (R56) -/

/-- A slot in WRITING loses its stream: no owner, free when both lines have been answered (R56). -/
def loseWritingSlot (k : SlotNo) (c : Slot) (d : Device) : Device :=
  if c.linesAnswered = 2 then freeSlot k d else d.withSlot k (some { c with owner := none, lost := true })

/-- What stream loss does to a slot that has a sequence, or to one in READING or WAITING_POSITION (R56). -/
def loseSlot (k : SlotNo) (d : Device) : Device :=
  match d.capture.slots.get k with
  | none => d
  | some c =>
    match c.phase with
    | .reading | .waitingPosition => cancelSlot k d
    | .writing => loseWritingSlot k c (answerOwner c.owner c.line .retry d)
    | .done => freeSlot k (answerOwner c.owner c.line .retry d)
    | .cancelled => d

/-- The journaled writes of a stream that are not forwarded (R14, R56). -/
def isHeldWriteOf (s : StreamNo) (q : Request) : Bool := q.stream == some s && !q.forwarded

/-- RETRY for one held write of a lost stream, with what becomes of its slot (R56). -/
def loseWrite (s : StreamNo) (d : Device) (t : ReqTag) : Device :=
  match d.path.requests.get t with
  | none => d
  | some q =>
    if isHeldWriteOf s q then
      match q.state with
      | .waitOrder => respond t .retry (leaveLine q.line t d)
      | .waitSlot => respond t .retry (releaseLine q.line d)
      | .capturing => match slotOwnedBy d t with
        | some (k, _) => loseSlot k d
        | none => respond t .retry (releaseLine q.line d)
      | _ => d
    else d

/-- The writes of a stream leave the slot queue. -/
def leaveSlotQueue (s : StreamNo) (d : Device) : Device :=
  let stays (t : ReqTag) : Bool :=
    match d.path.requests.get t with
    | some q => q.stream != some s
    | none => false
  { d with capture := { d.capture with queue := d.capture.queue.filter stays } }

/-- The Capture Unit's part of stream loss: held writes in ascending requester tag, then slots without owner in ascending slot
number, then the filter and the saturated flag (R56, R78 step 5). That the ownerless slots come last, and their order, is the
model's own (log 42). -/
def loseCaptures (s : StreamNo) (d : Device) : Device :=
  let d := (indices 64).foldl (loseWrite s) (leaveSlotQueue s d)
  let d := (slotsOf d s).foldl (fun d p => if p.2.lost then d else loseSlot p.1 d) d
  (removeStreamEntries s d).withStream s fun x => { x with saturated := false }

/-- RETRY for one write of the stream that waits for a slot (R56, DETACH). -/
def retryWaitSlot (s : StreamNo) (d : Device) (t : ReqTag) : Device :=
  match d.path.requests.get t with
  | none => d
  | some q => if q.stream = some s ∧ q.state = .waitSlot then respond t .retry (releaseLine q.line d) else d

/-- The Capture Unit's part of a DETACH (R56, R81). The writes come in ascending requester tag, then the slots in ascending slot
number, an order of the model's own (log 42). -/
def detachCaptures (s : StreamNo) (d : Device) : Device :=
  let d := removeStreamEntries s d
  let d := (indices 64).foldl (retryWaitSlot s) (leaveSlotQueue s d)
  (slotsOf d s).foldl (fun d p => if p.2.unplaced then cancelSlot p.1 d else d) d

/-- The slots in WAITING_POSITION at the start of a rollback on an EXHAUSTED stream (R56, R105), in ascending slot number, an
order of the model's own (log 42). -/
def cancelWaitingSlots (s : StreamNo) (d : Device) : Device :=
  (slotsOf d s).foldl (fun d p => if p.2.phase = .waitingPosition then cancelSlot p.1 d else d) d

end Sys2Proof.Machine
end

