-- ==== Sys2Proof/Machine/RegionTable.lean ====
section
/-! DEFINITION. The Region Table (Chapter 1): changes, their application, internal changes, degradation. -/
namespace Sys2Proof.Machine

/-- The MODE_REACHED report of a tag (R17). -/
def reachedReport (d : Device) (r : RegionNo) (tag : BitVec 16) (reached left : Mode) : Report where
  kind := .modeReached
  tag := tag
  region := r.1
  stream := streamByte (d.regions.get r).stream
  address := (d.regions.get r).base
  first := reached.code
  second := left.code

/-- A tagged change produces its MODE_REACHED, an internal one nothing (R7). -/
def reportReached (r : RegionNo) (c : Change) (reached left : Mode) (d : Device) : Device :=
  match c with
  | .tagged t => pushReport (reachedReport d r t reached left) d
  | _ => d

/-- A region's filter entries are removed when its effective mode leaves JOURNAL (R8). -/
def leaveJournal (r : RegionNo) (left : Mode) (d : Device) : Device :=
  if left = .journal then removeEntries (fun e => e.region == r) d else d

/-- A pending change is applied (R7). -/
def applyChange (r : RegionNo) (d : Device) : Device :=
  let e := d.regions.get r
  let d := d.withRegion r fun e => { e with effective := e.requested, change := .none }
  let d := reportReached r e.change e.requested e.effective d
  if e.requested = e.effective then d else leaveJournal r e.effective d

/-- MODE_CHANGE_APPLIED: a change is applied when the four conditions of R7 hold. -/
def tryModeChangeApplied (r : RegionNo) (d : Device) : Option Device :=
  if changeReady d (d.regions.get r) then some (applyChange r d) else none

/-- R7 tested and, where its conditions hold, applied. -/
def testChange (r : RegionNo) (d : Device) : Device := (tryModeChangeApplied r d).getD d

/-- The second count of MODE_SUPERSEDED when an internal change supersedes (R17). -/
def internalCode : Nat := 65536

/-- A pending tag is superseded (R12 step 2, R13). -/
def supersede (r : RegionNo) (by_ : Nat) (d : Device) : Device :=
  let e := d.regions.get r
  match e.change with
  | .tagged t => pushReport { kind := .modeSuperseded, tag := t, region := r.1, stream := streamByte e.stream,
                              address := e.base, first := e.requested.code, second := by_ } d
  | _ => d

/-- An internal change of the requested mode (R13). -/
def internalChange (r : RegionNo) (m : Mode) (d : Device) : Device :=
  let d := supersede r internalCode d
  if m = (d.regions.get r).effective then d.withRegion r fun e => { e with requested := m, change := .none }
  else testChange r (d.withRegion r fun e => { e with requested := m, change := .internal })

/-- A region returns to JOURNAL (R16). -/
def tryReturn (r : RegionNo) (d : Device) : Option Device :=
  if returnsToJournal d (d.regions.get r) then some (internalChange r .journal d) else none

/-- An accepted SET_MODE after its COMMAND_DONE (R12 steps 2 to 4). -/
def acceptMode (r : RegionNo) (m : Mode) (tag : BitVec 16) (d : Device) : Device :=
  let d := supersede r tag.toNat d
  if m = (d.regions.get r).effective then
    reportReached r (.tagged tag) m m (d.withRegion r fun e => { e with requested := m, change := .none })
  else testChange r (d.withRegion r fun e => { e with requested := m, change := .tagged tag })

/-! ## Degradation (R14, R15) -/

/-- A region of a lost stream leaves JOURNAL for HOLD (R14). -/
def degradeRegion (d : Device) (r : RegionNo) : Device :=
  if (d.regions.get r).effective = .journal then
    leaveJournal r .journal (d.withRegion r fun e => { e with effective := .hold, degrading := true })
  else d

/-- Degradation of a lost stream's regions starts (R14). -/
def degradeRegions (s : StreamNo) (d : Device) : Device := (boundRegions d s).foldl degradeRegion d

/-- One region's degradation ends (R15, R17). -/
def endDegradation (s : StreamNo) (epoch : Nat) (d : Device) (r : RegionNo) : Device :=
  pushReport { kind := .regionDegraded, region := r.1, stream := s.1, address := (d.regions.get r).base, epoch := epoch,
               first := (d.regions.get r).requested.code }
    (d.withRegion r fun e => { e with effective := .pass, degrading := false })

/-- R7 after a degradation; a change whose requested mode is PASS is found in force (R15, log 31). Its MODE_REACHED gives PASS as
the mode reached and as the mode left (log 39). -/
def changeAfterDegradation (d : Device) (r : RegionNo) : Device :=
  let e := d.regions.get r
  if e.change ≠ .none ∧ e.requested = .pass then
    reportReached r e.change .pass .pass (d.withRegion r fun e => { e with change := .none })
  else testChange r d

/-- Degradation of the stream's regions ends (R15). -/
def endDegradations (s : StreamNo) (epoch : Nat) (d : Device) : Device :=
  let rs := (boundRegions d s).filter fun r => (d.regions.get r).degrading
  rs.foldl changeAfterDegradation (rs.foldl (endDegradation s epoch) d)

/-! ## Rollback (R13) -/

/-- One region is held (R105 step 3, R136). -/
def holdRegion (d : Device) (r : RegionNo) : Device :=
  if (d.regions.get r).decodes then
    internalChange r .hold (d.withRegion r fun e => { e with resume := some e.requested })
  else d

/-- The stream's regions are held (R105 step 3, R136), in ascending region number, an order of the model's own (log 38). -/
def holdRegions (s : StreamNo) (d : Device) : Device := (boundRegions d s).foldl holdRegion d

/-- One held region goes back to its resume mode (R115 step 2). -/
def resumeRegion (d : Device) (r : RegionNo) : Device :=
  match (d.regions.get r).resume with
  | none => d
  | some m => internalChange r m (d.withRegion r fun e => { e with resume := none })

/-- The held regions go back to their resume modes (R115 step 2), in ascending region number (log 38). -/
def resumeRegions (s : StreamNo) (d : Device) : Device := (heldRegions d s).foldl resumeRegion d

/-- The held regions of a failed rollback keep requested HOLD (R116, R137). -/
def dropResume (s : StreamNo) (d : Device) : Device :=
  (boundRegions d s).foldl (fun d r => d.withRegion r fun e => { e with resume := none }) d

end Sys2Proof.Machine
end

