-- ==== Sys2Proof/Machine/WindowWatcher.lean ====
section
/-! DEFINITION. The window watcher (02 section 2.8), and how the owners of the five watched words judge their values. -/
namespace Sys2Proof.Machine

/-- A RING_SETUP value is judged (R140). -/
def judgeRingSetup (v : BitVec 64) (d : Device) : Device :=
  if d.command.head = d.command.tail ∧ d.command.fetch = .idle ∧ ringPlaced d.winsel 2 8 v then
    offerHeadLine (d.withCommand fun c => { c with
      ringSet := true, base := ringBase v, exponent := ringExponent v, head := 0, tail := 0 })
  else valueMisuse 0x00 v d

/-- A COMMAND_TAIL value is judged (R141); `admission` is the admission number of the write that carried it. -/
def judgeCommandTail (v : BitVec 64) (admission : Nat) (d : Device) : Device :=
  if d.command.ringSet ∧ v.toNat < 2 ^ d.command.exponent then
    { d.withCommand fun c => { c with tail := v.toNat } with path := { d.path with fence := admission } }
  else valueMisuse 0x08 v d

/-- The ring that is set up is not quiet (R154). -/
def reportRingBusy (u : ReportUnit) : Bool := u.ringSet && (!u.queue.isEmpty || unacknowledged u != 0)

/-- A REPORT_SETUP value is judged (R154). -/
def judgeReportSetup (v : BitVec 64) (d : Device) : Device :=
  if reportRingBusy d.report = false ∧ ringPlaced d.winsel 3 10 v then
    offerHeadLine (d.withReport fun u => { u with
      ringSet := true, base := ringBase v, exponent := ringExponent v, producer := 0, acknowledged := 0 })
  else valueMisuse 0x10 v d

/-- The value lies from the acknowledged index up to the producer index (R157). -/
def ackInRange (u : ReportUnit) (v : Nat) : Bool :=
  decide (v < 2 ^ (u.exponent + 1))
  && decide ((v + 2 ^ (u.exponent + 1) - u.acknowledged) % 2 ^ (u.exponent + 1) ≤ unacknowledged u)

/-- A REPORT_ACK value is judged (R157). -/
def judgeReportAck (v : BitVec 64) (d : Device) : Device :=
  if d.report.ringSet ∧ ackInRange d.report v.toNat then d.withReport fun u => { u with acknowledged := v.toNat }
  else valueMisuse 0x18 v d

/-- The owner of word `i` of the first window line judges its value (Table 2-8). -/
def judgeWord (i : Fin 5) (v : BitVec 64) (admission : Nat) (d : Device) : Device :=
  match i with
  | 0 => judgeRingSetup v d
  | 1 => judgeCommandTail v admission d
  | 2 => judgeReportSetup v d
  | 3 => judgeReportAck v d
  | 4 => judgeFaultAck v d

/-- How many bytes of word `i` a mask covers. -/
def wordBytes (mask : Mask) (i : Fin 5) : Nat := ((List.range 8).filter fun b => mask.getLsbD (8 * i.1 + b)).length

/-- One watched word of a write into the first window line (R37). -/
def watchWord (mask : Mask) (data : Line) (admission : Nat) (d : Device) (i : Fin 5) : Device :=
  if wordBytes mask i = 8 then judgeWord i (BitVec.ofNat 64 (bytesAt data (8 * i.1) 8)) admission d
  else if wordBytes mask i = 0 then d
  else pushReport { kind := .windowMisuse, address := windowBase d.winsel + 8 * i.1, first := wordBytes mask i } d

/-- The window watcher examines an admitted WRITE (R37). -/
def watchWindow (line : Nat) (mask : Mask) (data : Line) (admission : Nat) (d : Device) : Device :=
  if line = windowBase d.winsel then (indices 5).foldl (watchWord mask data admission) d else d

end Sys2Proof.Machine
end

