-- ==== Sys2Proof/Machine/RequestPath.lean ====
section
/-! DEFINITION. The Request Path and the Arbiter (Chapter 2): acceptance, admission, line grants, the hold limit, grants of the
memory port. -/
namespace Sys2Proof.Machine

/-! ## Admission and line order -/

/-- What an upstream request does once it is granted its line (Table 2-5): a journaled write goes to the Capture Unit, every
other request is forwarded. -/
def upstreamGranted (t : ReqTag) (d : Device) : Device :=
  match d.path.requests.get t with
  | none => d
  | some q => if q.stream.isSome then handToCapture t q.line d else forward t d

/-- An admitted request asks for its line (R24). -/
def askUpstream (t : ReqTag) (q : Request) (d : Device) : Device :=
  if grantedAtOnce (lockOf d q.line) q.write then upstreamGranted t (takeLine q.line q.write d)
  else joinLine q.line (.upstream t q.write) (d.setRequestState t .waitOrder)

/-- The effective mode a request is handled under (R26). -/
def handlingMode (d : Device) (covering : Option RegionNo) : Mode :=
  match covering with
  | none => .pass
  | some r => (d.regions.get r).effective

/-- The stream field at admission (Table 2-3): the bound stream, for a WRITE admitted under JOURNAL. -/
def admittedStream (d : Device) (q : Request) : Option StreamNo :=
  match q.covering with
  | some r => if q.write && (d.regions.get r).effective == .journal then (d.regions.get r).stream else none
  | none => none

/-- The region's admitted count rises at an admission (R4). -/
def countAdmission (covering : Option RegionNo) (d : Device) : Device :=
  match covering with
  | none => d
  | some r => d.withRegion r fun e => { e with admitted := e.admitted + 1 }

/-- A request is admitted: it takes its admission number, the window watcher sees it, and it is refused or asks for its line
(R4, R22, R26, R37). -/
def admitRequest (t : ReqTag) (d : Device) : Device :=
  match d.path.requests.get t with
  | none => d
  | some q =>
    let n := d.path.admissions
    let mode := handlingMode d q.covering
    let q := { q with admission := some n, stream := admittedStream d q, state := .waitOrder }
    let d := countAdmission q.covering (d.withRequest t (some q))
    let d := { d with path := { d.path with admissions := n + 1, waitMode := d.path.waitMode.filter (· != t) } }
    let d := if q.write then watchWindow q.line q.mask q.data n d else d
    if mode = .seal ∧ q.write then respond t .refused d else askUpstream t q d

/-- The oldest request that waits on a region (R4). -/
def oldestWaiting (d : Device) (r : RegionNo) : Option ReqTag :=
  d.path.waitMode.find? fun t => match d.path.requests.get t with
    | some q => q.covering == some r
    | none => false

/-- A region releases its waiting requests: it admits them, while covered traffic is not held (R28, R165; log 37), or has
stopped decoding (R4, R7). -/
def releasesWaiting (d : Device) (e : Region) : Bool := (e.admits && normal d) || !e.decodes

/-- REQUEST_ADMISSION: the oldest request waiting on the region is admitted, as uncovered when the region has stopped
decoding (R4, R7, R22); as covered only in NORMAL (R28, R165; log 37). -/
def tryRequestAdmission (r : RegionNo) (d : Device) : Option Device :=
  match oldestWaiting d r with
  | none => none
  | some t =>
    let e := d.regions.get r
    if e.decodes then (if e.admits && normal d then some (admitRequest t d) else none)
    else some (admitRequest t (d.withRequest t ((d.path.requests.get t).map fun q => { q with covering := none })))

/-- The region of the oldest request that can be admitted now. -/
def nextAdmission (d : Device) : Option RegionNo :=
  let ready (t : ReqTag) : Option RegionNo :=
    match d.path.requests.get t with
    | some q => match q.covering with
      | some r => if releasesWaiting d (d.regions.get r) then some r else none
      | none => none
    | none => none
  (d.path.waitMode.filterMap ready).head?

/-- A READ or WRITE arrives (R18, R19, R22). -/
def acceptRequest (t : ReqTag) (write : Bool) (line : Nat) (mask : Mask) (data : Line) (d : Device) : Device :=
  match d.path.requests.get t with
  | some _ =>
    if normal d then
      pushReport { kind := .check, status := .failed, address := line, first := Cause.portTagConflict.code, second := t.1 } d
    else d
  | none =>
    let q : Request := ⟨write, line, mask, data, covering d line, none, none, d.now, .waitMode⟩
    let d := d.withRequest t (some q)
    if q.covering = none then admitRequest t d
    else { d with path := { d.path with waitMode := d.path.waitMode ++ [t] } }

/-- LINE_GRANT: the front of a line's queue is granted (R24), but for a covered request while covered traffic is held (R28,
R165; log 37). -/
def tryLineGrant (line : Nat) (d : Device) : Option Device :=
  let l := lockOf d line
  match l.queue with
  | [] => none
  | a :: rest =>
    if l.hold.takeable a.exclusive && !a.heldBack d then
      let d := d.withLock line fun l => { l with hold := l.hold.take a.exclusive, queue := rest }
      match a with
      | .upstream t _ => some (upstreamGranted t d)
      | .own r => some (enterClass r d)
    else none

/-- The lowest line whose front can be granted. -/
def nextLineGrant (d : Device) : Option Nat := (d.path.locks.find? (grantable d)).map (·.line)

/-! ## The hold limit (R27, R28) -/

/-- A write leaves the slot queue. -/
def dropFromSlotQueue (t : ReqTag) (d : Device) : Device :=
  { d with capture := { d.capture with queue := d.capture.queue.filter (· != t) } }

/-- The hold limit of a request expires (Table of R27). -/
def expireRequest (t : ReqTag) (d : Device) : Device :=
  match d.path.requests.get t with
  | none => d
  | some q =>
    match q.state with
    | .waitMode => respond t .retry d
    | .waitOrder => respond t .retry (leaveLine q.line t d)
    | .waitSlot => respond t .retry (releaseLine q.line (dropFromSlotQueue t d))
    | .capturing =>
      match slotOwnedBy d t with
      | some (k, c) =>
        if c.unplaced then cancelSlot k d
        else respond t .retry (releaseLine q.line (d.mapSlot k fun c => { c with owner := none }))
      | none => respond t .retry (releaseLine q.line d)
    | .ready | .forwarded => d

/-- The clock has reached a moment (R28, R30, R72). -/
def reach (moment : Nat) (d : Device) : Device := { d with now := max d.now moment }

/-- HOLD_LIMIT_EXPIRY: a request that is not forwarded reaches the limit in force (R27, R28). -/
def tryHoldLimitExpiry (t : ReqTag) (d : Device) : Option Device :=
  match d.path.requests.get t, holdLimitMicros d with
  | some q, some limit => if q.forwarded then none else some (expireRequest t (reach (q.holdStart + limit) d))
  | _, _ => none

/-- One request measured against a new hold limit: it expires when it has already waited longer (R28, R149). -/
def expireIfOver (d : Device) (t : ReqTag) : Device :=
  match d.path.requests.get t, holdLimitMicros d with
  | some q, some limit => if !q.forwarded ∧ limit < d.now - q.holdStart then expireRequest t d else d
  | _, _ => d

/-! ## The Arbiter (R33, R34) -/

/-- The data of a write that is taken at its issue: the head line (R143) and the closing line (R168). -/
def issueData (d : Device) (r : PortRequest) : Line :=
  match r.job with
  | .headLine => headLine d.command.head d.report.producer
  | .faultClosing => faultClosingLine (recordNumber d).toNat d.check.cause d.check.second d.check.results
  | _ => r.data

/-- What the owner of a request is told at its grant: a forwarded request enters FORWARDED (R29), the waiting head-line write
becomes the outstanding one (R143). -/
def granted (r : PortRequest) (d : Device) : Device :=
  match r.job with
  | .forward t => d.setRequestState t .forwarded
  | .headLine => d.withCommand fun c => { c with headWaiting := false, headAsked := false, headOutstanding := true }
  | _ => d

/-- The age count after a grant (R34). -/
def ageAfter (d : Device) (r : PortRequest) : Nat :=
  if r.job.portClass = .c5 then 0
  else if (oldestOf d .c5).isSome then min Config.ageBound (d.arbiter.age + 1) else d.arbiter.age

/-- A request is issued on the memory port under a tag (R29, R34). -/
def issue (t : MemTag) (r : PortRequest) (d : Device) : Device :=
  let data := issueData d r
  let a := ageAfter d r
  let d := { d with
    arbiter := { waiting := d.arbiter.waiting.erase r
                 issued := d.arbiter.issued ++ [⟨t, { r with data := data }, r.job.portClass == .c5, false, d.now⟩]
                 age := a }
    sent := d.sent ++ [⟨t, r.write, r.line, r.mask, data⟩] }
  granted r d

/-- ARBITER_GRANT: a free tag goes to the request that R34 chooses. -/
def tryArbiterGrant (t : MemTag) (d : Device) : Option Device :=
  match arbiterChoice d with
  | some r => if tagFree d t then some (issue t r d) else none
  | none => none

/-! ## What follows at the same event -/

/-- The lowest region whose change can be applied. -/
def nextChange (d : Device) : Option RegionNo := (indices 16).find? fun r => changeReady d (d.regions.get r)

/-- The lowest region that returns to JOURNAL. -/
def nextReturn (d : Device) : Option RegionNo := (indices 16).find? fun r => returnsToJournal d (d.regions.get r)

/-- The next thing that regions, admissions and lines do at an event. -/
def pathStep (d : Device) : Option Device :=
  match nextChange d with
  | some r => tryModeChangeApplied r d
  | none =>
  match nextReturn d with
  | some r => tryReturn r d
  | none =>
  match nextAdmission d with
  | some r => tryRequestAdmission r d
  | none =>
  match nextLineGrant d with
  | some line => tryLineGrant line d
  | none => none

/-- `pathStep` as long as it finds something, at most `n` times. -/
def pathSteps : Nat → Device → Device
  | 0, d => d
  | n + 1, d => match pathStep d with
    | none => d
    | some d' => pathSteps n d'

/-- The Region Table, admissions and line grants run to rest. -/
def settlePath (d : Device) : Device := pathSteps Config.innerSteps d

end Sys2Proof.Machine
end

