-- ==== Sys2Proof/Machine/EpochLogic.lean ====
section
/-! DEFINITION. The epoch logic (Chapter 5): retiring marks, freeing segments, the freed list, the commit of a mark. -/
namespace Sys2Proof.Machine

/-- The oldest held mark is retired (R88, Table 5-1). -/
def retireOldest (s : StreamNo) (cause : RetireCause) (d : Device) : Device :=
  match (d.streams.get s).marks with
  | [] => d
  | m :: rest =>
    pushReport { kind := .markRetired, stream := s.1, epoch := m.epoch, label := m.label.toNat, sequence := m.sequence,
                 first := cause.code, second := rest.length } (d.withStream s fun x => { x with marks := rest })

/-- As long as the oldest held mark meets `p`, it is retired; at most `n` times. -/
def retireWhile (p : MarkEntry → Bool) (s : StreamNo) (cause : RetireCause) : Nat → Device → Device
  | 0, d => d
  | n + 1, d =>
    match (d.streams.get s).marks with
    | m :: _ => if p m then retireWhile p s cause n (retireOldest s cause d) else d
    | [] => d

/-- The freeing limit, absent where it is unbounded (R89). -/
def freeingLimit (x : Stream) : Option Nat :=
  match x.marks.head?.map (·.sequence), (x.pendingMark.bind (·.record)).map (·.sequence) with
  | some a, some b => some (min a b)
  | some a, none => some a
  | none, b => b

/-- The examination of the history from its front: what is freed, and what stays (R89). -/
def freeFront (limit : Option Nat) : List Segment → List FreedSegment × List Segment
  | a :: b :: rest =>
    if limit.all (fun l => decide (b.first ≤ l)) then
      let r := freeFront limit (b :: rest)
      (⟨a.descriptor, a.base, b.first - 1, .waiting⟩ :: r.1, r.2)
    else ([], a :: b :: rest)
  | h => ([], h)

/-- Segments are freed (R89). -/
def Stream.freeSegments (x : Stream) : Stream :=
  let r := freeFront (freeingLimit x) x.history
  { x with history := r.2, freed := x.freed ++ r.1 }

/-- How many segments a freeing would free. -/
def Stream.freeable (x : Stream) : Nat := (freeFront (freeingLimit x) x.history).1.length

/-- A member of the freed list is settled (R90). -/
def FreedSegment.settled (committed : Option Nat) (f : FreedSegment) : Bool :=
  f.anchor == .acknowledged && committed.any fun c => decide (f.last ≤ c)

/-- The SEGMENT_FREED report of a member (Table 5-1). -/
def freedReport (s : StreamNo) (x : Stream) (f : FreedSegment) : Report where
  kind := .segmentFreed
  stream := s.1
  sequence := f.last
  address := f.descriptor
  first := x.history.length
  second := f.base

/-- The settled members at the front of the freed list are reported and leave it (R90). -/
def testFreed (s : StreamNo) (d : Device) : Device :=
  let x := d.streams.get s
  let members := x.freed.takeWhile (FreedSegment.settled x.committed)
  let d := d.withStream s fun x => { x with freed := x.freed.dropWhile (FreedSegment.settled x.committed) }
  members.foldl (fun d f => pushReport (freedReport s x f) d) d

/-- The pending mark commits (R95); for the initial mark the second anchor write follows (R100, R130). -/
def commitMark (s : StreamNo) (m : PendingMark) (sequence : Nat) (d : Device) : Device :=
  let full := decide (Config.tableMarks ≤ (d.streams.get s).marks.length)
  let d := if full then retireOldest s .capacity d else d
  let d := d.withStream s fun x =>
    { x with marks := x.marks ++ [⟨m.epoch, m.label, sequence⟩], pendingMark := none }
  if (d.streams.get s).state = .opening then offerAnchor s .attachSecond d
  else
    let n := (d.streams.get s).freeable
    let d := d.withStream s fun x => { x.freeSegments with
      operation := x.operation.map fun o =>
        { o with sequence := sequence, retired := if full then 1 else 0, freed := n } }
    offerAnchor s .markCommit d

/-- A pending mark whose record the committed sequence covers commits (R95). -/
def testMark (s : StreamNo) (d : Device) : Device :=
  let x := d.streams.get s
  match x.pendingMark with
  | none => d
  | some m =>
    match m.record, x.committed with
    | some r, some c => if r.sequence ≤ c then commitMark s m r.sequence d else d
    | _, _ => d

/-- The committed sequence rises through the acknowledged set (R65). -/
def riseThrough : List Nat → Nat → List Nat × Nat
  | [], c => ([], c)
  | a :: rest, c => if a = c + 1 then riseThrough rest a else (a :: rest, c)

/-- A sequence joins the acknowledged set, ascending (R65). -/
def insertSequence (n : Nat) : List Nat → List Nat
  | [] => [n]
  | a :: rest => if n < a then n :: a :: rest else if n = a then a :: rest else a :: insertSequence n rest

/-- A record is acknowledged: the committed sequence rises as far as it can, the Capture Unit and the epoch logic are told, and
the freed list is tested (R65, R66, R90). That the slots are released before the mark commits is the model's own (R95, log 49). -/
def recordAcknowledged (s : StreamNo) (sequence : Nat) (d : Device) : Device :=
  let x := d.streams.get s
  if x.lost then d
  else
    match x.committed with
    | none => d
    | some c =>
      let r := riseThrough (insertSequence sequence x.acknowledged) c
      let d := d.withStream s fun x => { x with acknowledged := r.1, committed := some r.2 }
      if r.2 = c then d else testFreed s (testMark s (releaseCommitted s r.2 d))

end Sys2Proof.Machine
end

