-- ==== Sys2Proof/Machine/JournalWriter.lean ====
section
/-! DEFINITION. The Journal Writer (Chapter 4): placing records, descriptors, segment entry, exhaustion, EXTEND, stream loss,
and the values of a detached stream. -/
namespace Sys2Proof.Machine

/-! ## Descriptors (R67) -/

/-- The descriptor at an address is fetched into the next descriptor (R67). -/
def fetchDescriptor (s : StreamNo) (address : Nat) (d : Device) : Device :=
  offer (readOf (.descriptor s) (lineOf address)) (d.withStream s fun x => { x with next := .fetching address })

/-- The descriptor that follows the current one is fetched, if the current one names it (R67, R75). -/
def fetchFollowing (s : StreamNo) (d : Device) : Device :=
  let x := d.streams.get s
  match x.current with
  | none => d
  | some c =>
    if c.contents.last then
      match x.extensionLink with
      | some l => fetchDescriptor s l (d.withStream s fun x => { x with extensionLink := none })
      | none => d
    else fetchDescriptor s c.contents.link d

/-! ## The end of a stream's life (R83) -/

/-- The values of a stream that becomes DETACHED (R83). -/
def Stream.detached (x : Stream) : Stream :=
  { x with
    state := .detached, nextSequence := none, committed := none, epoch := none, current := none, next := .absent
    extensionLink := none, pendingMark := none, resumedTarget := none, positions := [], acknowledged := [], history := []
    freed := [], marks := [], operation := none, extension := none, saturated := false, stallStart := none
    lossCause := none, entering := false, attach := none }

/-- A stream becomes DETACHED (R83). -/
def detachStream (s : StreamNo) (d : Device) : Device := d.withStream s Stream.detached

/-! ## Stream loss (R77, R78) -/

/-- The requests of the stream's journal reads, restore writes and truncation re-read. -/
def isEngineJob : Job → Bool
  | .journalRead _ _ | .restore _ | .truncationDescriptor _ => true
  | _ => false

/-- The engine's part of a failure: its requests are withdrawn or discarded, and it takes its cold values but for the waiting
claims (R116). -/
def engineFails (s : StreamNo) (d : Device) : Device :=
  if d.engine.owner = some s then
    (abandon isEngineJob (dropResume s d)).withEngine fun e => { Engine.cold with claims := e.claims }
  else d

/-- The COMMAND_DONE FAILED of the operation in progress (R78, R116, Tables 5-1, 6-3, 7-3); `g` is the engine as it stood. -/
def failedDone (g : Engine) (o : Operation) (cause : Cause) (sequence address : Nat) : Report :=
  let base : Report := { kind := .commandDone, tag := o.tag, status := .failed, second := cause.code }
  match o.kind with
  | .mark => { base with epoch := o.epoch, label := o.label.toNat, sequence := o.sequence, first := o.retired }
  | .release => { base with epoch := o.epoch, first := o.retired }
  | .detach => base
  | .rollback => { base with
      epoch := o.epoch, label := o.label.toNat, first := g.applied, address := address
      sequence := if sequence = 0 then g.applyPointer.getD 0 else sequence }
  | .attach => { base with
      epoch := g.targetEpoch.getD 0, first := g.applied, sequence := sequence, address := address }

/-- The operation and the extension in progress complete FAILED (R78 step 3): the operation first, an order of the model's own
(log 74). -/
def failOperations (s : StreamNo) (x : Stream) (g : Engine) (cause : Cause) (sequence address : Nat) (d : Device) : Device :=
  let d := d.withStream s fun x => { x with operation := none, extension := none }
  let d := match x.operation with
    | some o => streamDone s (failedDone g o cause sequence address) d
    | none => d
  match x.extension with
  | some e => streamDone s { kind := .commandDone, tag := e.tag, status := .failed, address := e.descriptor,
                             second := cause.code } d
  | none => d

/-- The requests that stream loss abandons: descriptor fetch and update, the first descriptor, anchor reads (R78 step 6). -/
def isChainJobOf (s : StreamNo) : Job → Bool
  | .descriptor s' | .updateRead s' | .updateWrite s' => s' == s
  | _ => false

/-- The lines of the stream's MARK record. -/
def isMarkJobOf (s : StreamNo) : Job → Bool
  | .markRecord s' _ => s' == s
  | _ => false

/-- Stream loss (R78), in its order; `broken` tells BROKEN from FAULTED. An anchor write outstanding at the loss keeps no owner but
the Check Unit, so a segment entry that waited for it has no SEGMENT_ENTERED (log 68). The pending mark is absent before the
invalidation is offered, so its epoch is written undiminished (log 69). -/
def loseStream (s : StreamNo) (cause : Cause) (broken : Bool) (sequence address : Nat) (d : Device) : Device :=
  let x := d.streams.get s
  let g := d.engine
  let d := d.withStream s fun x => { x with
    state := if broken then .broken else .faulted, lossCause := some cause, stallStart := none, marks := []
    pendingMark := none }
  let d := discardLater (isMarkJobOf s) d
  let d := pushReport { kind := .streamLost, status := .failed, stream := s.1, epoch := x.epoch.getD 0,
                        sequence := x.committed.getD 0, address := x.anchorAddress, first := x.marks.length,
                        second := cause.code } d
  let d := failOperations s x g cause sequence address d
  let d := loseCaptures s (degradeRegions s d)
  let d := abandon (isChainJobOf s) d
  let d := d.withStream s fun x => { x with
    next := .absent, extensionLink := none, entering := false, freed := []
    anchorOutstanding := x.anchorOutstanding.map fun w => { w with occasions := w.occasions.filter (· == .check) } }
  let d := d.withStream s fun x => { freezeInvalidation (.loss (x.epoch.getD 0)) x with invalidation := .waiting }
  engineFails s d

/-- The requests of a stream's ATTACH. -/
def isAttachJobOf (s : StreamNo) : Job → Bool
  | .anchorRead s' _ _ | .firstDescriptor s' | .resumeDescriptor s' | .scanRead s' _ _ | .descriptor s'
  | .markRecord s' _ => s' == s
  | _ => false

/-- The stream's anchor writes are not its ATTACH's alone: they are the invalidation of the stream's earlier life (R79, R81), or
what the Check Unit has offered or awaits (R167). -/
def keepsAnchorWrites (d : Device) (s : StreamNo) : Bool :=
  (d.streams.get s).invalidation != .none || d.check.stages.get s != .none

/-- The requests of an ATTACH are withdrawn or discarded (R131, R137). -/
def abandonAttach (s : StreamNo) (d : Device) : Device :=
  if keepsAnchorWrites d s then abandon (isAttachJobOf s) d
  else
    (abandon (isAnchorWriteOf s) (abandon (isAttachJobOf s) d)).withStream s fun x =>
      { x with anchorWaiting := none, anchorOutstanding := none }

/-- An ATTACH ends without its stream: DETACHED by R83, and its COMMAND_DONE with this status (R131, R132, R134, R137). -/
def endAttach (s : StreamNo) (status : Status) (second sequence address : Nat) (d : Device) : Device :=
  let tag := ((d.streams.get s).operation.map (·.tag)).getD 0
  let d := dropResume s (abandonAttach s d)
  let d := detachStream s (d.withEngine fun e => { e with claims := e.claims.filter (· != s) })
  streamDone s { kind := .commandDone, tag := tag, status := status, sequence := sequence, address := address,
                 second := second } d

/-- The CHECK report of a FAULTED cause (Table 4-5). -/
def checkReport (s : StreamNo) (cause : Cause) (sequence address : Nat) : Report where
  kind := .check
  status := .failed
  stream := s.1
  sequence := sequence
  address := address
  first := cause.code

/-- The occasions that an ATTACH's own anchor writes serve (Table 7-2). -/
def Occasion.ofAttach : Occasion → Bool
  | .attachFirst | .attachSecond | .resume => true
  | _ => false

/-- An ATTACH whose failure is dropped offers nothing more. Of its anchor writes only one that the Check Unit awaits is left, and it
no longer serves the ATTACH (R163, R167, log 63). -/
def Stream.attachFailed (x : Stream) : Stream :=
  { x with
    anchorWaiting := x.anchorWaiting.filter fun w => w.frozen.isSome
    anchorOutstanding := x.anchorOutstanding.map fun w => { w with occasions := w.occasions.filter fun o => !o.ofAttach }
    attach := x.attach.map fun a => { a with failed := true } }

/-- A contained check of a stream while a device check is handled (R163): an ATTACH in OPENING or RESUMING has its requests withdrawn
or discarded as at its failure (R131, R137), and nothing else follows: no report, no change of the stream's state (R77). -/
def dropFault (s : StreamNo) (d : Device) : Device :=
  let x := d.streams.get s
  if x.state = .opening ∨ x.state = .resuming then (abandonAttach s d).withStream s Stream.attachFailed else d

/-- A contained check of a stream (R77): dropped during a device check's handling (R163); a failure of the ATTACH in OPENING and
RESUMING; stream loss in the states that can be lost; nothing in the others. -/
def streamFault (s : StreamNo) (cause : Cause) (sequence address : Nat) (d : Device) : Device :=
  let x := d.streams.get s
  if !normal d then dropFault s d
  else if x.state = .opening ∨ x.state = .resuming then endAttach s .failed cause.code sequence address d
  else if x.losable then loseStream s cause false sequence address (pushReport (checkReport s cause sequence address) d)
  else d

/-! ## Placing (R62 to R64) -/

/-- The two line writes of a record, header first (R51, R63). -/
def recordWrites (job : Bool → Job) (address : Nat) (header image : Line) : List PortRequest :=
  [writeOf (job false) address header, writeOf (job true) (address + 64) image]

/-- The sequence and the record index rise (R63). -/
def Stream.advance (x : Stream) : Stream :=
  { x with
    nextSequence := x.nextSequence.map (· + 1)
    current := x.current.map fun c => { c with index := c.index + 1 } }

/-- A slot's record is placed (R51, R63). -/
def placeSlot (s : StreamNo) (k : SlotNo) (c : Slot) (sequence address : Nat) (d : Device) : Device :=
  let image := c.image.getD 0
  let header := recordHeader beforeImageKind s.1 c.region.1 (d.streams.get s).stamp.toNat sequence c.epoch c.line 0 image
  let d := leavePositions k s (d.withStream s Stream.advance)
  let d := d.withSlot k (some { c with sequence := some sequence, address := some address, phase := .writing })
  offerAll (recordWrites (.slotRecord k) address header image) d

/-- The MARK record is placed (R63). -/
def placeMark (s : StreamNo) (m : PendingMark) (sequence address : Nat) (d : Device) : Device :=
  let header := recordHeader markKind s.1 0 (d.streams.get s).stamp.toNat sequence m.epoch 0 m.label.toNat 0
  let d := d.withStream s fun x => { x.advance with pendingMark := some { m with record := some ⟨sequence, address, 0⟩ } }
  let d := d.withStream s fun x => { x with operation := x.operation.map fun o => { o with sequence := sequence } }
  offerAll (recordWrites (.markRecord s) address header 0) d

/-- The record to place is placed at the position. -/
def placeAt (s : StreamNo) (p : Placeable) (sequence address : Nat) (d : Device) : Device :=
  match p with
  | .slot k => match d.capture.slots.get k with
    | some c => placeSlot s k c sequence address d
    | none => leavePositions k s d
  | .mark => match (d.streams.get s).pendingMark with
    | some m => placeMark s m sequence address d
    | none => d

/-- Forced retirement (R99). -/
def forcedRetirement (s : StreamNo) (d : Device) : Device :=
  let x := d.streams.get s
  if Config.historyEntries ≤ x.history.length then
    let second := ((x.history.drop 1).head?.map (·.first)).getD 0
    (retireWhile (fun m => decide (m.sequence < second)) s .history x.marks.length d).withStream s Stream.freeSegments
  else d

/-- The held next descriptor becomes the current segment (R69 step 2). -/
def Stream.enter (x : Stream) (address : Nat) (c : Descriptor) : Stream :=
  { x with
    current := some ⟨address, c, 0⟩
    history := x.history ++ [⟨address, c.base, c.count, x.nextSequence.getD 0, c.notify⟩]
    next := .absent
    entering := true }

/-- Segment entry (R69). -/
def enterSegment (s : StreamNo) (address : Nat) (c : Descriptor) (d : Device) : Device :=
  let d := (forcedRetirement s d).withStream s fun x => x.enter address c
  offerAnchor s (.entry (d.streams.get s).history.length) d

/-- A slot that finds no segment or no sequence in HOLDING is cancelled (R106). -/
def cancelPlaceable (p : Placeable) (d : Device) : Device :=
  match p with
  | .slot k => cancelSlot k d
  | .mark => d

/-- The stream becomes EXHAUSTED (R71, Table 4-5). -/
def exhaust (s : StreamNo) (d : Device) : Device :=
  let x := d.streams.get s
  pushReport { kind := .streamExhausted, stream := s.1, epoch := x.epoch.getD 0, sequence := x.nextSequence.getD 0,
               address := (x.current.map (·.descriptor)).getD 0, first := x.positions.length,
               second := stallCode x.stallLimit }
    (d.withStream s fun x => { x with state := .exhausted, stallStart := some d.now })

/-- A record needs a new segment, the current descriptor has LAST and the next one is absent (R71, R82, R106). -/
def runOut (s : StreamNo) (p : Placeable) (d : Device) : Option Device :=
  let x := d.streams.get s
  match x.state with
  | .active => match x.policy with
    | .stall => some (exhaust s d)
    | .breakStream => some (loseStream s .exhaustion true 0 0 d)
  | .rollingBack => some (cancelPlaceable p d)
  | _ => none

/-- A record needs a new segment (R69 to R71). -/
def needSegment (s : StreamNo) (p : Placeable) (c : CurrentSegment) (d : Device) : Option Device :=
  match (d.streams.get s).next with
  | .held a contents => some (enterSegment s a contents d)
  | .fetching _ => none
  | .absent => if c.contents.last then runOut s p d else none

/-- The sequence limit is met (R64, R106). -/
def sequenceLimitMet (s : StreamNo) (p : Placeable) (d : Device) : Device :=
  if (d.streams.get s).state = .rollingBack then cancelPlaceable p d else loseStream s .sequenceLimit true 0 0 d

/-- RECORD_PLACEMENT: the record to place is placed, or meets what stops it; absent where nothing is to be placed or the
record waits (R62, R63). -/
def tryRecordPlacement (s : StreamNo) (d : Device) : Option Device :=
  if placesRecords d s then
    let x := d.streams.get s
    match recordToPlace d s, x.nextSequence, x.current with
    | some p, some n, some c =>
      if Config.topNumber ≤ n then some (sequenceLimitMet s p d)
      else if c.index < c.contents.count then some (placeAt s p n (c.contents.base + c.index * 128) d)
      else needSegment s p c d
    | _, _, _ => none
  else none

/-! ## Answers to record lines and descriptors -/

/-- A line of a slot's record is answered (R51, R59, R66). -/
def slotRecordAnswered (k : SlotNo) (line : Nat) (a : MemAnswer) (d : Device) : Device :=
  match d.capture.slots.get k with
  | none => d
  | some c =>
    let c := { c with linesAnswered := c.linesAnswered + 1 }
    if c.lost then
      let c := if a = .error then c else { c with linesWritten := c.linesWritten + 1 }
      if c.linesAnswered = 2 then freeSlot k d else d.withSlot k (some c)
    else
      match a with
      | .error => streamFault c.stream .recordWrite (c.sequence.getD 0) (c.address.getD line) (d.withSlot k (some c))
      | _ =>
        let c := { c with linesWritten := c.linesWritten + 1 }
        if c.linesWritten = 2 then
          recordAcknowledged c.stream (c.sequence.getD 0) (d.withSlot k (some { c with phase := .done }))
        else d.withSlot k (some c)

/-- A line of the stream's MARK record is answered (R63, R66). -/
def markRecordAnswered (s : StreamNo) (a : MemAnswer) (d : Device) : Device :=
  match (d.streams.get s).pendingMark with
  | none => d
  | some m =>
    match m.record with
    | none => d
    | some r =>
      match a with
      | .error => streamFault s .recordWrite r.sequence r.address d
      | _ =>
        let r := { r with linesWritten := r.linesWritten + 1 }
        let d := d.withStream s fun x => { x with pendingMark := some { m with record := some r } }
        if r.linesWritten = 2 then recordAcknowledged s r.sequence d else d

/-- The EXTEND in progress completes OK (R76). -/
def extensionDone (s : StreamNo) (e : Extension) (target : Nat) (d : Device) : Device :=
  streamDone s { kind := .commandDone, tag := e.tag, address := e.descriptor, second := target }
    (d.withStream s fun x => { x with extension := none })

/-- An EXHAUSTED stream whose descriptor has arrived becomes ACTIVE, and its waiting record enters the segment (R76). -/
def leaveExhaustion (s : StreamNo) (d : Device) : Device :=
  if (d.streams.get s).state = .exhausted then
    let d := d.withStream s fun x => { x with state := .active, stallStart := none }
    (tryRecordPlacement s d).getD d
  else d

/-- A valid descriptor becomes the held next descriptor; an EXTEND that waited for it completes (R67, R76), also while a device
check is handled (log 61). -/
def descriptorHeld (s : StreamNo) (address : Nat) (c : Descriptor) (d : Device) : Device :=
  let x := d.streams.get s
  let d := d.withStream s fun x => { x with next := .held address c }
  match x.extension with
  | none => d
  | some e =>
    match e.stage with
    | .fetching target => extensionDone s e target (leaveExhaustion s d)
    | _ => d

/-- The answer to a descriptor fetch (R67, R68). -/
def descriptorAnswered (s : StreamNo) (a : MemAnswer) (d : Device) : Device :=
  match (d.streams.get s).next with
  | .fetching address =>
    match a with
    | .data line =>
      let c := parseDescriptor line address
      if c.valid d.winsel then descriptorHeld s address c d else streamFault s .descriptorInvalid 0 address d
    | _ => streamFault s .descriptorFetch 0 address d
  | _ => d

/-! ## EXTEND (R74, R75) -/

/-- The stage of the EXTEND in progress. -/
def setStage (g : ExtendStage) (x : Stream) : Stream :=
  { x with extension := x.extension.map fun e => { e with stage := g } }

/-- A descriptor update begins: its READ takes the descriptor's line as a write does (R74). -/
def startUpdate (s : StreamNo) (current : Bool) (target : Nat) (d : Device) : Device :=
  offer (readOf (.updateRead s) (lineOf target)) (d.withStream s (setStage (.updating current target)))

/-- The target of a taken EXTEND is chosen (R74). A held next descriptor is judged whether or not the current one has LAST
(log 50), and a choice made while a device check is handled is acted on as any other (log 61). -/
def chooseTarget (s : StreamNo) (e : Extension) (d : Device) : Device :=
  let x := d.streams.get s
  match x.current, x.next with
  | some c, .absent =>
    if c.contents.last then startUpdate s true c.descriptor d
    else streamDone s { kind := .commandDone, tag := e.tag, status := .chainNotEnded, address := e.descriptor }
      (d.withStream s fun x => { x with extension := none })
  | _, .held a n =>
    if n.last ∧ x.extensionLink = none then startUpdate s false a d
    else streamDone s { kind := .commandDone, tag := e.tag, status := .chainNotEnded, address := e.descriptor }
      (d.withStream s fun x => { x with extension := none })
  | _, _ => d

/-- EXTEND_TARGET_CHOICE: with no segment entry and no descriptor fetch in progress (R74). -/
def tryExtendTargetChoice (s : StreamNo) (d : Device) : Option Device :=
  let x := d.streams.get s
  match x.extension with
  | none => none
  | some e => if e.stage = .choosing ∧ x.entering = false ∧ x.fetching = false then some (chooseTarget s e d) else none

/-- The READ of a descriptor update is answered: the line is written back with the new link (R74). -/
def updateReadAnswered (s : StreamNo) (line : Nat) (a : MemAnswer) (d : Device) : Device :=
  match (d.streams.get s).extension with
  | none => releaseLine line d
  | some e =>
    match e.stage, a with
    | .updating _ target, .data l =>
      enterClass (writeOf (.updateWrite s) line (updatedDescriptorLine l target e.descriptor)) d
    | .updating _ target, _ => streamFault s .descriptorUpdate 0 target (releaseLine line d)
    | _, _ => releaseLine line d

/-- The current descriptor's on-chip copy takes the new link and loses LAST (R74). -/
def Stream.relink (x : Stream) (link : Nat) : Stream :=
  { x with current := x.current.map fun c => { c with contents := { c.contents with last := false, link := link } } }

/-- The WRITE of a descriptor update is answered (R74, R75, R76). Where the held next descriptor was entered meanwhile, its link is
set all the same and nothing is fetched for it until a later entry of a descriptor with LAST takes it (log 58; log 30 for the
relinking). While a device check is handled the EXTEND goes on and completes all the same (log 61). -/
def updateWriteAnswered (s : StreamNo) (a : MemAnswer) (d : Device) : Device :=
  match (d.streams.get s).extension with
  | none => d
  | some e =>
    match e.stage, a with
    | .updating _ target, .error => streamFault s .descriptorUpdate 0 target d
    | .updating true target, _ =>
      fetchDescriptor s e.descriptor (d.withStream s fun x => setStage (.fetching target) (x.relink e.descriptor))
    | .updating false target, _ =>
      extensionDone s e target (d.withStream s fun x => { x with extensionLink := some e.descriptor })
    | _, _ => d

/-! ## The stall limit (R72) -/

/-- STALL_LIMIT_EXPIRY: an EXHAUSTED stream with a running timer and a limit (R72, R84). -/
def tryStallLimitExpiry (s : StreamNo) (d : Device) : Option Device :=
  let x := d.streams.get s
  match x.state, x.stallStart, x.stallLimit with
  | .exhausted, some start, some k =>
    some (loseStream s .stallLimit true 0 0 (reach (start + 2 ^ k * 1000) d))
  | _, _, _ => none

/-! ## DETACH (R82) -/

/-- The conditions of R82; waiting for the Check Unit's NORMAL is log 19. -/
def detachReady (d : Device) (s : StreamNo) : Bool :=
  let x := d.streams.get s
  x.state == .detaching && (slotsOf d s).isEmpty && x.settled && !x.entering && !x.fetching && x.extension.isNone
  && x.anchorIdle && normal d

/-- DETACH_FINAL_ANCHOR (R82). -/
def tryDetachFinalAnchor (s : StreamNo) (d : Device) : Option Device :=
  if detachReady d s then some (offerAnchor s .detach d) else none

end Sys2Proof.Machine
end

