-- ==== Sys2Proof/Machine/RollbackEngine.lean ====
section
/-! DEFINITION. The Rollback Engine (Chapter 6): holding, the walk, truncation, completion, and the waiting claims. Its work
stops while a device check is handled (R117). -/
namespace Sys2Proof.Machine

/-- The stamp rises by one, from its top value to 1 (R113, R129, R134). -/
def nextStamp (stamp : BitVec 32) : BitVec 32 := if stamp.toNat = Config.topNumber then 1 else stamp + 1

/-! ## Taking the engine (R103, R105, R118) -/

/-- A ROLLBACK is taken to the mark `m` (R105). -/
def takeRollback (s : StreamNo) (tag : BitVec 16) (m : MarkEntry) (d : Device) : Device :=
  let wasExhausted := (d.streams.get s).state == .exhausted
  let d := d.withEngine fun g => { Engine.cold with
    phase := .holding, owner := some s, tag := tag, targetEpoch := some m.epoch, targetSequence := some m.sequence
    claims := g.claims }
  let d := d.withStream s fun x => { x with
    operation := some ⟨.rollback, tag, m.epoch, m.label, m.sequence, 0, 0⟩, state := .rollingBack, stallStart := none }
  let d := holdRegions s d
  if wasExhausted then cancelWaitingSlots s d else d

/-- The engine as a resumed rollback takes it (R118 step 1). -/
def resumedEngine (s : StreamNo) (x : Stream) (claims : List StreamNo) : Engine :=
  { Engine.cold with
    phase := .holding, owner := some s, origin := .resume, tag := (x.operation.map (·.tag)).getD 0
    targetEpoch := x.resumedTarget
    targetSequence := x.attach.bind (·.targetSequence)
    walkTop := x.committed, readPointer := x.committed, applyPointer := x.committed, claims := claims }

/-- ENGINE_CLAIM_HANDOFF: a free engine passes to the oldest waiting claim (R103, R118). -/
def tryEngineClaimHandoff (d : Device) : Option Device :=
  match d.engine.phase, d.engine.claims with
  | .idle, s :: rest =>
    some ((d.withEngine fun _ => resumedEngine s (d.streams.get s) rest).withStream s fun x =>
      { x with state := .rollingBack })
  | _, _ => none

/-- A stream claims the engine: it takes it when it is free and no claim waits, and joins the list otherwise (R103). -/
def claimEngine (s : StreamNo) (d : Device) : Device :=
  let d := d.withEngine fun g => { g with claims := g.claims ++ [s] }
  (tryEngineClaimHandoff d).getD d

/-! ## Reading and applying (R109 to R112) -/

/-- The reads of one record: header and image lines (R109, R133). -/
def recordReads (job : Bool → Job) (address : Nat) : List PortRequest :=
  [readOf (job false) address, readOf (job true) (address + 64)]

/-- Records are offered for reading while the window has room; at most `n` of them (R109). The record of the target sequence is the
last one offered, and the read pointer stays at it (log 73). -/
def refillWindow : Nat → StreamNo → Device → Device
  | 0, _, d => d
  | n + 1, s, d =>
    match d.engine.readPointer, d.engine.targetSequence with
    | some p, some m =>
      if d.engine.window.length < Config.windowRecords ∧ m ≤ p ∧ d.engine.targetOffered = false ∧ normal d then
        let address := recordAddress (d.streams.get s) p
        let d := d.withEngine fun g => { g with
          window := g.window ++ [⟨p, address, none, none⟩], readPointer := some (if p = m then m else p - 1)
          targetOffered := p == m }
        refillWindow n s (offerAll (recordReads (.journalRead p) address) d)
      else d
    | _, _ => d

/-- A line of a record arrives in a window. -/
def WindowRecord.receive (sequence : Nat) (image : Bool) (line : Line) (w : WindowRecord) : WindowRecord :=
  if w.sequence = sequence then (if image then { w with image := some line } else { w with header := some line }) else w

/-- Why a record is not valid for the walk, in the order of the tests (R110). -/
def recordFault (header image : Line) (pointer m e : Nat) : Option Cause :=
  if !recordChecks header image then some .recordCheck
  else if headerSequence header ≠ pointer then some .recordSequence
  else if pointer = m then
    (if headerKind header = markKind ∧ headerEpoch header = e then none else some .recordContent)
  else if headerKind header = beforeImageKind then none
  else if headerKind header = markKind ∧ e < headerEpoch header then none
  else some .recordContent

/-- The processed record leaves the window and the apply pointer falls (R111). Of a record 0, which only a target sequence of 0 asks
for, a value that Table 6-1 does not have, the apply pointer stays at 0: the model's choice (log 65). -/
def popRecord (d : Device) : Device :=
  d.withEngine fun g => { g with window := g.window.drop 1, applyPointer := g.applyPointer.map (· - 1) }

/-- A valid record is processed (R111); absent where it waits for a restore write. The restore write locks and writes the line
address that the record carries, also one that is no multiple of 64, which R110 does not test: the model's choice (log 66). -/
def processRecord (header image : Line) (pointer m : Nat) (d : Device) : Option Device :=
  if headerKind header = beforeImageKind then
    if d.engine.restores < Config.restoreWrites then
      let d := d.withEngine fun g => { g with restores := g.restores + 1, applied := g.applied + 1 }
      some (popRecord (offer (writeOf (.restore pointer) (headerLineAddress header) image) d))
    else none
  else if pointer = m then some (popRecord (d.withEngine fun g => { g with targetMet := true }))
  else some (popRecord (d.withEngine fun g => { g with skipped := g.skipped + 1 }))

/-- The records whose turn has come are processed, at most `n` of them (R109 to R111). -/
def processWindow : Nat → StreamNo → Device → Device
  | 0, _, d => d
  | n + 1, s, d =>
    match d.engine.window.head?, d.engine.targetSequence, d.engine.targetEpoch with
    | some w, some m, some e =>
      match w.header, w.image with
      | some h, some i =>
        match recordFault h i w.sequence m e with
        | some cause => streamFault s cause w.sequence w.address d
        | none =>
          match processRecord h i w.sequence m d with
          | some d' => processWindow n s (refillWindow Config.windowRecords s d')
          | none => d
      | _, _ => d
    | _, _, _ => d

/-! ## Truncation (R113, R114) -/

/-- The journal is cut back to the mark `m` of epoch `e` (R113 steps 1, 2, 4, 5). -/
def Stream.truncate (x : Stream) (m e : Nat) : Stream :=
  { x with
    nextSequence := some (m + 1), committed := some m, acknowledged := []
    history := x.history.filter fun h => decide (h.first ≤ m)
    next := .absent, extensionLink := none
    marks := x.marks.filter fun k => decide (k.epoch ≤ e)
    epoch := some e, stamp := nextStamp x.stamp, saturated := false
    operation := x.operation.map fun o =>
      { o with retired := (x.marks.filter fun k => decide (e < k.epoch)).length } }

/-- The stream's descriptor prefetch. -/
def isPrefetchOf (s : StreamNo) : Job → Bool
  | .descriptor s' => s' == s
  | _ => false

/-- Entry to FINAL_ANCHOR (R115). -/
def enterFinalAnchor (s : StreamNo) (d : Device) : Device :=
  offerAnchor s .final (d.withEngine fun g => { g with phase := .finalAnchor })

/-- The record index after a truncation (R113 step 7, R114). -/
def truncatedIndex (x : Stream) (m : Nat) : Nat := m + 1 - (x.history.getLast?.map (·.first)).getD 0

/-- Truncation (R113). Where no history entry holds `m`, the history becomes empty and the model re-reads line 0, a choice of its own
(log 64). -/
def truncate (s : StreamNo) (m e : Nat) (d : Device) : Device :=
  let x := d.streams.get s
  let stays := (x.history.getLast?.map (·.first)).getD 0 ≤ m
  let d := (d.withEngine fun g => { g with phase := .truncating }).withStream s fun x => x.truncate m e
  let d := removeStreamEntries s (abandon (isPrefetchOf s) d)
  let x := d.streams.get s
  if stays then
    enterFinalAnchor s (d.withStream s fun x => { x with
      current := x.current.map fun c => { c with index := truncatedIndex x m } })
  else offer (readOf (.truncationDescriptor s) (lineOf ((x.history.getLast?.map (·.descriptor)).getD 0))) d

/-- The walk ends when the target mark is processed and no restore write is outstanding (R112). -/
def testWalkEnd (s : StreamNo) (d : Device) : Device :=
  match d.engine.targetSequence, d.engine.targetEpoch with
  | some m, some e =>
    if d.engine.phase = .restoring ∧ d.engine.targetMet ∧ d.engine.restores = 0 then truncate s m e d else d
  | _, _ => d

/-- The walk goes on as far as it can. -/
def walk (s : StreamNo) (d : Device) : Device :=
  testWalkEnd s (processWindow (Config.windowRecords + 1) s d)

/-- The phase becomes RESTORING, and reading begins (R108, R118). -/
def enterRestoring (s : StreamNo) (d : Device) : Device :=
  refillWindow Config.windowRecords s (d.withEngine fun g => { g with phase := .restoring })

/-! ## The end of HOLDING (R107, R118) -/

/-- Every held region has reached HOLD (R107). -/
def regionsHeld (d : Device) (s : StreamNo) : Bool :=
  (heldRegions d s).all fun r => (d.regions.get r).effective == .hold && (d.regions.get r).change == .none

/-- The conditions of R107; waiting for the Check Unit's NORMAL is log 19. -/
def holdingReady (d : Device) (s : StreamNo) : Bool :=
  let x := d.streams.get s
  regionsHeld d s && ((slotsOf d s).all fun p => !p.2.unplaced) && x.settled && !x.entering && x.extension.isNone
  && x.anchorIdle && normal d

/-- HOLDING_END: the walk's bounds are taken and the pending anchor is offered (R107, R108). -/
def tryHoldingEnd (d : Device) : Option Device :=
  match d.engine.phase, d.engine.origin, d.engine.owner with
  | .holding, .command, some s =>
    if holdingReady d s then
      let c := (d.streams.get s).committed
      some (offerAnchor s (.pending (d.engine.targetEpoch.getD 0)) (d.withEngine fun g => { g with
        phase := .pendingAnchor, walkTop := c, readPointer := c, applyPointer := c }))
    else none
  | _, _, _ => none

/-- RESUMED_HOLDING_END: with every held region in HOLD, the walk begins (R118). -/
def tryResumedHoldingEnd (d : Device) : Option Device :=
  match d.engine.phase, d.engine.origin, d.engine.owner with
  | .holding, .resume, some s => if regionsHeld d s && normal d then some (enterRestoring s d) else none
  | _, _, _ => none

/-! ## Answers -/

/-- A journal read is answered (R109). -/
def journalReadAnswered (sequence : Nat) (image : Bool) (a : MemAnswer) (d : Device) : Device :=
  match d.engine.owner with
  | none => d
  | some s =>
    if !normal d then d
    else
      match a with
      | .data line =>
        walk s (d.withEngine fun g => { g with window := g.window.map (WindowRecord.receive sequence image line) })
      | _ => streamFault s .journalRead sequence (recordAddress (d.streams.get s) sequence) d

/-- A restore write is answered (R111, R112). -/
def restoreAnswered (sequence : Nat) (a : MemAnswer) (d : Device) : Device :=
  match d.engine.owner with
  | none => d
  | some s =>
    if !normal d then d
    else
      match a with
      | .error => streamFault s .restoreWrite sequence (recordAddress (d.streams.get s) sequence) d
      | _ => walk s (d.withEngine fun g => { g with restores := g.restores - 1 })

/-- The target segment's descriptor is answered (R114). With an empty history, left by a truncation to a mark that no entry held, the
answer is ignored, and the rollback stays in TRUNCATING: the model's choice (log 64). -/
def truncationAnswered (s : StreamNo) (a : MemAnswer) (d : Device) : Device :=
  match (d.streams.get s).history.getLast? with
  | none => d
  | some h =>
    if !normal d then d
    else
      match a with
      | .data line =>
        let c := parseDescriptor line h.descriptor
        if c.valid d.winsel ∧ c.base = h.base ∧ c.count = h.count then
          let m := d.engine.targetSequence.getD 0
          enterFinalAnchor s (d.withStream s fun x => { x with current := some ⟨h.descriptor, c, m + 1 - h.first⟩ })
        else streamFault s .descriptorInvalid 0 h.descriptor d
      | _ => streamFault s .descriptorFetch 0 h.descriptor d

/-- The label of the newest held mark, or zero (Table 7-3). -/
def newestLabel (x : Stream) : Nat := (x.marks.getLast?.map (·.label.toNat)).getD 0

/-- The COMMAND_DONE of a completed rollback (Table 6-3), or of the ATTACH it was resumed for (Table 7-3). -/
def rollbackDone (g : Engine) (x : Stream) (o : Operation) : Report :=
  match g.origin with
  | .command => { kind := .commandDone, tag := o.tag, epoch := o.epoch, label := o.label.toNat, sequence := o.sequence,
                  address := x.anchorAddress, first := g.applied, second := o.retired }
  | .resume => { kind := .commandDone, tag := o.tag, region := 16, epoch := x.epoch.getD 0, label := newestLabel x
                 sequence := x.committed.getD 0, address := x.anchorAddress, first := x.stamp.toNat, second := g.applied }

/-- The rollback completes at the acknowledgement of its final anchor (R115). -/
def completeRollback (s : StreamNo) (d : Device) : Device :=
  let g := d.engine
  let d := d.withStream s fun x => { x with state := .active }
  let d := fetchFollowing s (settlePath (resumeRegions s d))
  let x := d.streams.get s
  let d := d.withStream s fun x => { x with operation := none, attach := none }
  let d := d.withEngine fun g => { Engine.cold with claims := g.claims }
  let d := (tryEngineClaimHandoff d).getD d
  match x.operation with
  | some o => streamDone s (rollbackDone g x o) d
  | none => d

end Sys2Proof.Machine
end

