-- ==== Sys2Proof/Machine/Attach.lean ====
section
/-! DEFINITION. ATTACH (07 sections 7.3 to 7.6): the anchor reads, the fresh stream, the resumed stream and its forward
scan. -/
namespace Sys2Proof.Machine

/-! ## Taking an ATTACH (R128) -/

/-- The 32 anchor reads, in ascending address (R33, R128). -/
def anchorReads (s : StreamNo) (address : Nat) : List PortRequest :=
  ([Copy.a, Copy.b]).flatMap fun c =>
    (indices 16).map fun i => readOf (.anchorRead s c i) (copyAddress address c + 64 * i.1)

/-- The ATTACH under way changed. -/
def Device.withAttach (d : Device) (s : StreamNo) (f : Attach → Attach) : Device :=
  d.withStream s fun x => { x with attach := x.attach.map f }

/-- The anchor reads are offered, once no invalidation of the stream's earlier life is left (R128); not for an ATTACH whose failure
was dropped meanwhile (R163, log 63). -/
def offerAnchorReads (s : StreamNo) (d : Device) : Device :=
  let x := d.streams.get s
  match x.attach with
  | some a =>
    if x.invalidation = .none ∧ a.readsOffered = false ∧ a.failed = false then
      offerAll (anchorReads s x.anchorAddress) (d.withAttach s fun a => { a with readsOffered := true })
    else d
  | none => d

/-- An ATTACH as it begins. -/
def Attach.start (fresh : Bool) (first : Nat) : Attach where
  fresh := fresh
  readsOffered := false
  failed := false
  copyA := Table.fill 16 none
  copyB := Table.fill 16 none
  judged := false
  firstAddress := first
  first := none
  firstAnchored := false
  target := none
  targetSequence := none
  scan := none

/-- ATTACH FRESH is taken (R128, R129): its reads are offered in ascending address (R33). -/
def takeFresh (s : StreamNo) (tag : BitVec 16) (policy : Policy) (stall : Option Nat) (label : BitVec 32)
    (anchor first : Nat) (d : Device) : Device :=
  let d := d.withStream s fun x => { x with
    state := .opening, anchorAddress := anchor, policy := policy, stallLimit := stall, epoch := some 1
    operation := some ⟨.attach, tag, 1, label, 0, 0, 0⟩, pendingMark := some ⟨1, label, tag, none⟩
    nextSequence := some 1, committed := some 0
    attach := some { Attach.start true first with readsOffered := decide (x.invalidation = .none) } }
  let reads := if (d.streams.get s).invalidation = .none then anchorReads s anchor else []
  offerAll (byAddress (readOf (.firstDescriptor s) (lineOf first)) reads) d

/-- ATTACH RESUME is taken (R128, R132). -/
def takeResume (s : StreamNo) (tag : BitVec 16) (anchor : Nat) (d : Device) : Device :=
  offerAnchorReads s (d.withStream s fun x => { x with
    state := .resuming, anchorAddress := anchor, operation := some ⟨.attach, tag, 0, 0, 0, 0, 0⟩
    attach := some (Attach.start false 0) })

/-! ## ATTACH FRESH (R129, R130) -/

/-- The context of a fresh stream once both copies are judged and the first descriptor is valid (R129 steps 1 to 3). -/
def Stream.freshen (x : Stream) (chosen : Option (Copy × BitVec 8192)) (address : Nat) (c : Descriptor) : Stream :=
  { x with
    stamp := match chosen with | some (_, k) => nextStamp (copyContents k).stamp | none => 1
    generation := match chosen with | some (_, k) => copyGeneration k | none => 0
    newest := match chosen with | some (n, _) => n | none => .b
    current := some ⟨address, c, 0⟩
    history := [⟨address, c.base, c.count, 1, c.notify⟩]
    marks := [] }

/-- The two copies of an ATTACH, once all their lines have arrived. -/
def bothCopies (a : Attach) : Option (BitVec 8192 × BitVec 8192) :=
  match joinLines a.copyA, joinLines a.copyB with
  | some x, some y => some (x, y)
  | _, _ => none

/-- The first anchor write is offered when the descriptor has arrived and both copies are judged (R129). -/
def testFresh (s : StreamNo) (d : Device) : Device :=
  let x := d.streams.get s
  match x.attach with
  | none => d
  | some a =>
    match bothCopies a, a.first with
    | some (p, q), some c =>
      if x.current = none then
        offerAnchor s .attachFirst (d.withStream s fun x => x.freshen (newestValid p q) a.firstAddress c)
      else d
    | _, _ => d

/-- The first descriptor is answered (R129, R131). -/
def firstDescriptorAnswered (s : StreamNo) (a : MemAnswer) (d : Device) : Device :=
  match (d.streams.get s).attach with
  | none => d
  | some w =>
    match a with
    | .data line =>
      let c := parseDescriptor line w.firstAddress
      if c.valid d.winsel then testFresh s (d.withAttach s fun w => { w with first := some c })
      else streamFault s .descriptorInvalid 0 w.firstAddress d
    | _ => streamFault s .descriptorFetch 0 w.firstAddress d

/-- The SEGMENT_ENTERED report of the newest segment (Table 4-5). -/
def enteredReport (s : StreamNo) (x : Stream) (h : Segment) (entries : Nat) : Report where
  kind := .segmentEntered
  stream := s.1
  epoch := x.epoch.getD 0
  sequence := h.first
  address := h.descriptor
  first := h.count
  second := entries

/-- SEGMENT_ENTERED for a descriptor with NOTIFY (R69, R130). -/
def reportEntered (s : StreamNo) (entries : Nat) (d : Device) : Device :=
  match (d.streams.get s).history.getLast? with
  | some h => if h.notify then pushReport (enteredReport s (d.streams.get s) h entries) d else d
  | none => d

/-- The first anchor write is acknowledged (R130). -/
def freshAnchored (s : StreamNo) (d : Device) : Device :=
  (fetchFollowing s (reportEntered s 1 d)).withAttach s fun a => { a with firstAnchored := true }

/-- The COMMAND_DONE of a fresh ATTACH (Table 7-3). -/
def freshDone (x : Stream) (o : Operation) : Report where
  kind := .commandDone
  tag := o.tag
  epoch := 1
  label := o.label.toNat
  sequence := 1
  address := x.anchorAddress
  first := x.stamp.toNat

/-- The COMMAND_DONE of a resumed ATTACH (Table 7-3). -/
def resumeDone (x : Stream) (o : Operation) (counts : Nat × Nat) : Report where
  kind := .commandDone
  tag := o.tag
  epoch := x.epoch.getD 0
  label := newestLabel x
  sequence := x.committed.getD 0
  address := x.anchorAddress
  first := x.stamp.toNat
  second := counts.1 + 65536 * counts.2

/-- An ATTACH's stream becomes ACTIVE and its regions act on it (R130, R135). -/
def becomeActive (s : StreamNo) (d : Device) : Device :=
  settlePath (d.withStream s fun x => { x with state := .active })

/-- The operation slot and the ATTACH under way end, with this COMMAND_DONE. -/
def finishAttach (s : StreamNo) (report : Stream → Operation → Report) (d : Device) : Device :=
  let x := d.streams.get s
  let d := d.withStream s fun x => { x with operation := none, attach := none }
  match x.operation with
  | some o => streamDone s (report x o) d
  | none => d

/-- The second anchor write of a fresh stream is acknowledged (R130). -/
def freshComplete (s : StreamNo) (d : Device) : Device := finishAttach s freshDone (becomeActive s d)

/-! ## The forward scan (R133) -/

/-- The first sequence of the current segment. -/
def currentFirst (x : Stream) : Nat := (x.history.getLast?.map (·.first)).getD 0

/-- The record count of the current segment. -/
def currentCount (x : Stream) : Nat := (x.current.map (·.contents.count)).getD 0

/-- The scan changed. -/
def Device.withScan (d : Device) (s : StreamNo) (f : Scan → Scan) : Device :=
  d.withAttach s fun a => { a with scan := a.scan.map f }

/-- The scan under way. -/
def scanOf (x : Stream) : Option Scan := x.attach.bind (·.scan)

/-- Records are offered for reading while the scan window has room; at most `n` of them (R133, R84). -/
def refillScan : Nat → StreamNo → Device → Device
  | 0, _, d => d
  | n + 1, s, d =>
    let x := d.streams.get s
    match scanOf x with
    | none => d
    | some c =>
      if c.window.length < Config.windowRecords ∧ c.nextUnread - currentFirst x < currentCount x ∧ normal d then
        let address := recordAddress x c.nextUnread
        let d := d.withScan s fun c => { c with
          window := c.window ++ [⟨c.nextUnread, address, none, none⟩], nextUnread := c.nextUnread + 1 }
        refillScan n s (offerAll (recordReads (.scanRead s c.nextUnread) address) d)
      else d

/-- A scanned record is accepted (R133). -/
def scanAccepts (x : Stream) (expected : Nat) (header image : Line) : Bool :=
  recordChecks header image && headerStamp header == x.stamp.toNat && headerSequence header == expected
  && (headerKind header == beforeImageKind || (headerKind header == markKind && headerEpoch header == x.epoch.getD 0 + 1))

/-- An accepted MARK record joins the epoch table (R133). -/
def acceptMark (s : StreamNo) (header : Line) (sequence : Nat) (d : Device) : Device :=
  let d := if Config.tableMarks ≤ (d.streams.get s).marks.length then retireOldest s .capacity d else d
  (d.withStream s fun x => { x with
    marks := x.marks ++ [⟨headerEpoch header, BitVec.ofNat 32 (headerLabel header), sequence⟩]
    epoch := some (headerEpoch header) }).withScan s fun c => { c with marks := c.marks + 1 }

/-- A scanned record is accepted and leaves the window (R133). -/
def acceptRecord (s : StreamNo) (header : Line) (sequence : Nat) (d : Device) : Device :=
  let d := if headerKind header = markKind then acceptMark s header sequence d else d
  d.withScan s fun c => { c with expected := c.expected + 1, accepted := c.accepted + 1, window := c.window.drop 1 }

/-- The scan reads of the stream. -/
def isScanJobOf (s : StreamNo) : Job → Bool
  | .scanRead s' _ _ => s' == s
  | _ => false

/-- The context at the end of the scan (R134 step 1). -/
def Stream.scanned (x : Stream) (expected : Nat) : Stream :=
  { x with
    committed := some (expected - 1), nextSequence := some expected, acknowledged := []
    current := x.current.map fun c => { c with index := expected - currentFirst x } }

/-- The scan ends (R134 to R136). The address of its ANCHOR_INVALID is that of the copy chosen (log 14). -/
def endScan (s : StreamNo) (expected : Nat) (d : Device) : Device :=
  let d := abandon (isScanJobOf s) (d.withScan s fun c => { c with window := [] })
  let d := d.withStream s fun x => x.scanned expected
  let x := d.streams.get s
  if x.epoch = some 0 then endAttach s .anchorInvalid 0 0 (copyAddress x.anchorAddress x.newest) d
  else
    let d := d.withStream s fun x => { x with stamp := nextStamp x.stamp }
    match x.attach.bind (·.target) with
    | some e => claimEngine s (holdRegions s (d.withStream s fun x => { x with resumedTarget := some e }))
    | none => offerAnchor s .resume (d.withStream s Stream.freeSegments)

/-- The records of the scan whose turn has come are judged; at most `n` of them (R133). A scan that needs no read ends during a
device check's handling too (log 47). -/
def judgeScan : Nat → StreamNo → Device → Device
  | 0, _, d => d
  | n + 1, s, d =>
    let x := d.streams.get s
    match scanOf x with
    | none => d
    | some c =>
      if currentCount x ≤ c.expected - currentFirst x then endScan s c.expected d
      else
        match c.window.head? with
        | none => d
        | some w =>
          match w.header, w.image with
          | some h, some i =>
            if scanAccepts x c.expected h i then
              judgeScan n s (refillScan Config.windowRecords s (acceptRecord s h c.expected d))
            else endScan s c.expected d
          | _, _ => d

/-- The scan goes on as far as it can. -/
def scanOn (s : StreamNo) (d : Device) : Device :=
  judgeScan (Config.windowRecords + 2) s (refillScan Config.windowRecords s d)

/-- A scan read is answered (R133, R137). -/
def scanReadAnswered (s : StreamNo) (sequence : Nat) (image : Bool) (a : MemAnswer) (d : Device) : Device :=
  match a with
  | .data line =>
    scanOn s (d.withScan s fun c => { c with window := c.window.map (WindowRecord.receive sequence image line) })
  | _ => streamFault s .journalRead sequence (recordAddress (d.streams.get s) sequence) d

/-! ## ATTACH RESUME (R132) -/

/-- The context loads the chosen copy (R132), fields that its tests let pass as they stand (log 67). A next sequence of 0 leaves
committed sequence 0 (log 54). -/
def Stream.load (x : Stream) (n : Copy) (copy : BitVec 8192) : Stream :=
  let c := copyContents copy
  { x with
    stamp := c.stamp, generation := copyGeneration copy, newest := n, policy := c.policy, stallLimit := c.stallLimit
    epoch := some c.epoch, marks := c.marks, history := c.history
    nextSequence := some c.nextSequence, committed := some (c.nextSequence - 1)
    attach := x.attach.map fun a => { a with
      target := if c.rollbackPending then some c.target else none
      targetSequence := if c.rollbackPending then (c.marks.find? (·.epoch == c.target)).map (·.sequence) else none } }

/-- Both copies of a RESUME are judged (R132). ANCHOR_INVALID and ANCHOR_INVALIDATED end the ATTACH during a device check's handling
too (log 45). -/
def resumeJudged (s : StreamNo) (p q : BitVec 8192) (d : Device) : Device :=
  let x := d.streams.get s
  match newestValid p q with
  | none => endAttach s .anchorInvalid 0 0 x.anchorAddress d
  | some (n, copy) =>
    if (copyContents copy).invalidated then endAttach s .anchorInvalidated 0 0 (copyAddress x.anchorAddress n) d
    else if copyContentsPass copy then
      let d := d.withStream s fun x => x.load n copy
      offer (readOf (.resumeDescriptor s) (lineOf (((d.streams.get s).history.getLast?.map (·.descriptor)).getD 0))) d
    else streamFault s .anchorContent 0 (copyAddress x.anchorAddress n) d

/-- The newest history entry's descriptor is answered (R132). -/
def resumeDescriptorAnswered (s : StreamNo) (a : MemAnswer) (d : Device) : Device :=
  let x := d.streams.get s
  match x.history.getLast? with
  | none => d
  | some h =>
    match a with
    | .data line =>
      let c := parseDescriptor line h.descriptor
      let next := x.nextSequence.getD 0
      if !(c.valid d.winsel && c.base == h.base && c.count == h.count) then
        streamFault s .descriptorInvalid 0 h.descriptor d
      else if h.count < next - h.first then streamFault s .anchorContent 0 (copyAddress x.anchorAddress x.newest) d
      else
        scanOn s ((d.withStream s fun x => { x with current := some ⟨h.descriptor, c, next - h.first⟩ }).withAttach s
          fun w => { w with scan := some ⟨next, next, [], 0, 0⟩ })
    | _ => streamFault s .descriptorFetch 0 h.descriptor d

/-- A line of a copy arrives (R128). -/
def Attach.receive (a : Attach) (c : Copy) (i : Fin 16) (line : Line) : Attach :=
  match c with
  | .a => { a with copyA := a.copyA.set i (some line) }
  | .b => { a with copyB := a.copyB.set i (some line) }

/-- An anchor read is answered; with both copies in, they are judged (R128, R129, R132). -/
def anchorReadAnswered (s : StreamNo) (c : Copy) (i : Fin 16) (a : MemAnswer) (d : Device) : Device :=
  match a with
  | .data line =>
    let d := d.withAttach s fun w => w.receive c i line
    match (d.streams.get s).attach with
    | none => d
    | some w =>
      match bothCopies w with
      | none => d
      | some (p, q) =>
        let d := d.withAttach s fun w => { w with judged := true }
        if w.fresh then testFresh s d else resumeJudged s p q d
  | _ => streamFault s .anchorRead 0 (copyAddress (d.streams.get s).anchorAddress c) d

/-- The resume anchor write is acknowledged, its freed list already tested (R135). -/
def resumeComplete (s : StreamNo) (d : Device) : Device :=
  let counts := match scanOf (d.streams.get s) with | some c => (c.accepted, c.marks) | none => (0, 0)
  finishAttach s (fun x o => resumeDone x o counts) (fetchFollowing s (becomeActive s d))

end Sys2Proof.Machine
end

