-- ==== Sys2Proof/Machine/ReportUnit.lean ====
section
/-! DEFINITION. The Report Unit's writes (09 section 9.3), and the answers to head-line writes (R143, R156). -/
namespace Sys2Proof.Machine

/-- The front report with its last two fields (R155): the next report sequence and the lap bit. -/
def stamped (u : ReportUnit) (r : Report) : Report :=
  { r with number := u.sequence + 1, lap := decide (u.producer < 2 ^ u.exponent) }

/-- The ring entry of the producer index (section 9.1). -/
def ringEntry (u : ReportUnit) : Nat := u.base + u.producer % 2 ^ u.exponent * 64

/-- REPORT_WRITE_ISSUE: the front report is written into the ring (R155). -/
def tryReportWriteIssue (d : Device) : Option Device :=
  match d.report.queue with
  | [] => none
  | r :: rest =>
    if d.report.ringSet ∧ ringHasSpace d.report ∧ d.report.writing = false then
      let r' := stamped d.report r
      some (offer (writeOf .report (ringEntry d.report) r'.encode) (d.withReport fun u => { u with
        queue := r' :: rest, sequence := u.sequence + 1, writing := true }))
    else none

/-- The report leaves the queue and the producer index rises (R155 steps 1 and 2). -/
def ReportUnit.written (u : ReportUnit) : ReportUnit :=
  { u with queue := u.queue.drop 1, writing := false, producer := (u.producer + 1) % 2 ^ (u.exponent + 1) }

/-- The report write is answered (R155, R156). -/
def reportAnswered (a : MemAnswer) (d : Device) : Device :=
  match a with
  | .error => deviceCheck .reportWrite .none d
  | _ => mergeSummary (offerHeadLine (d.withReport ReportUnit.written))

/-- The outstanding head-line write leaves its position (R143). -/
def freeHeadLine (d : Device) : Device := d.withCommand fun c => { c with headOutstanding := false }

/-- A head-line write is answered and nothing is wrong with it: a waiting one asks for its line (R143). -/
def headLineOver (d : Device) : Device :=
  let d := freeHeadLine d
  (tryHeadLineWriteIssue d).getD d

/-- A head-line write is answered (R143, R156). -/
def headLineAnswered (a : MemAnswer) (d : Device) : Device :=
  match a with
  | .error => deviceCheck .reportWrite .none (freeHeadLine d)
  | _ => headLineOver d

end Sys2Proof.Machine
end

