-- ==== Sys2Proof/Machine/CommandUnit.lean ====
section
/-! DEFINITION. The Command Unit (Chapter 8): fetching and taking records, the chain, and what each command does at its
taking. A `run…` is the effect of a command's record taken for execution, after the chain state has moved. -/
namespace Sys2Proof.Machine

/-! ## COMMAND_DONE of a command that completes at its taking (R145) -/

/-- The COMMAND_DONE of a command without target. -/
def plainDone (h : CmdHead) (status : Status) : Report := { kind := .commandDone, tag := h.tag, status := status }

/-- The COMMAND_DONE of a region's command: the region as the target byte gives it. -/
def regionDone (h : CmdHead) (status : Status) : Report :=
  { kind := .commandDone, tag := h.tag, status := status, region := h.target.toNat }

/-- The COMMAND_DONE of a stream's command: the stream as the target byte gives it. -/
def streamAnswer (h : CmdHead) (status : Status) : Report :=
  { kind := .commandDone, tag := h.tag, status := status, stream := h.target.toNat }

/-! ## Commands without another home (R148 to R152) -/

/-- NOP (R148). -/
def runNop (h : CmdHead) (d : Device) : Device := commandDone (plainDone h .ok) d

/-- The COMMAND_DONE of IDENTIFY (Table 8-3). -/
def identifyDone (h : CmdHead) : Report :=
  { plainDone h .ok with label := 0x55A34218, epoch := 0x02, sequence := 2048, first := 0x08100410, second := 0x08304010 }

/-- IDENTIFY (R148). -/
def runIdentify (h : CmdHead) (d : Device) : Device := commandDone (identifyDone h) d

/-- The hold limit a code sets (R149). -/
def configuredHold (code : Nat) (now : Option Nat) : Option Nat :=
  if code = 16 then now else if code = 15 then none else some code

/-- Notify enable as a code sets it (R149). -/
def configuredNotify (code : Nat) (now : Bool) : Bool := if code = 2 then now else code == 1

/-- The hold code in force (R149). -/
def holdCode (limit : Option Nat) : Nat := limit.getD 15

/-- CONFIGURE (R149). The requests over the new limit expire in ascending requester tag, an order of the model's own (log
40). -/
def runConfigure (h : CmdHead) (hold notify : BitVec 8) (d : Device) : Device :=
  if hold.toNat ≤ 16 ∧ notify.toNat ≤ 2 then
    let d := d.withCommand fun c => { c with
      holdLimit := configuredHold hold.toNat c.holdLimit, notifyEnable := configuredNotify notify.toNat c.notifyEnable }
    let d := (indices 64).foldl expireIfOver d
    commandDone { plainDone h .ok with
      first := holdCode d.command.holdLimit, second := if d.command.notifyEnable then 1 else 0 } d
  else commandDone (plainDone h .badArgument) d

/-- The pending change's code (R150). -/
def changeCode : Change → Nat
  | .tagged t => t.toNat
  | .internal => 65536
  | .none => 65537

/-- The fields of QUERY_REGION (R150). -/
def regionFields (h : CmdHead) (e : Region) : Report :=
  { regionDone h .ok with
    stream := streamByte e.stream, address := e.base, sequence := e.exponent, epoch := e.admitted
    first := e.requested.code + e.effective.code * 2 ^ 8 + resumeCode e.resume * 2 ^ 16
      + (if e.degrading then 2 ^ 24 else 0)
    second := changeCode e.change }

/-- QUERY_REGION (R150). -/
def runQueryRegion (h : CmdHead) (d : Device) : Device :=
  match targetRegion h with
  | none => commandDone (regionDone h .badArgument) d
  | some r => commandDone (regionFields h (d.regions.get r)) d

/-- The code of the operation in progress, 0 for none. -/
def operationCode : Option Operation → Nat
  | none => 0
  | some o => o.kind.code

/-- Item 0 of QUERY_STREAM (Table 8-4a). -/
def stateItem (r : Report) (x : Stream) : Report :=
  { r with
    epoch := x.epoch.getD 0, sequence := x.committed.getD 0, address := x.anchorAddress, label := x.stamp.toNat
    first := x.state.code + operationCode x.operation * 2 ^ 8 + causeCode x.lossCause * 2 ^ 16
    second := x.marks.length + x.history.length * 2 ^ 8 + x.positions.length * 2 ^ 16
      + ((if x.saturated then 1 else 0) + (if x.pendingMark.isSome then 2 else 0) + (if x.entering then 4 else 0)
        + (if x.extension.isSome then 8 else 0) + (if x.invalidation = .none then 0 else 16)) * 2 ^ 24 }

/-- The next descriptor state's code (Table 8-4a). -/
def nextCode (x : Stream) : Nat :=
  match x.next with
  | .absent => 0
  | .fetching _ => 1
  | .held _ _ => if x.extensionLink.isSome then 3 else 2

/-- Item 1 of QUERY_STREAM (Table 8-4a). -/
def chainItem (r : Report) (x : Stream) : Report :=
  { r with
    sequence := x.nextSequence.getD 0, address := (x.current.map (·.descriptor)).getD 0
    epoch := (x.pendingMark.map (·.epoch)).getD 0, label := x.generation.toNat, first := (x.current.map (·.index)).getD 0
    second := (if x.newest = .b then 1 else 0) + 2 * x.policy.code + stallCode x.stallLimit * 2 ^ 8 + nextCode x * 2 ^ 16 }

/-- Items 2 to 9 of QUERY_STREAM (Table 8-4a). -/
def markItem (r : Report) (x : Stream) (i : Nat) : Report :=
  match x.marks.drop i with
  | m :: _ => { r with epoch := m.epoch, label := m.label.toNat, sequence := m.sequence, first := x.marks.length }
  | [] => { r with first := x.marks.length }

/-- Items 10 to 25 of QUERY_STREAM (Table 8-4a). -/
def historyItem (r : Report) (x : Stream) (i : Nat) : Report :=
  match x.history.drop i with
  | e :: _ => { r with address := e.descriptor, sequence := e.first, first := e.count, second := e.base,
                       label := if e.notify then 1 else 0, epoch := x.history.length }
  | [] => { r with epoch := x.history.length }

/-- Item 26 of QUERY_STREAM (Table 8-4a). -/
def rollbackItem (r : Report) (s : StreamNo) (x : Stream) (g : Engine) : Report :=
  if g.owner = some s then
    { r with
      epoch := g.targetEpoch.getD 0, label := g.walkTop.getD 0, sequence := g.applyPointer.getD 0
      address := (g.applyPointer.map (recordAddress x)).getD 0, first := g.applied
      second := g.phase.code + g.skipped * 2 ^ 8 + g.restores * 2 ^ 16 }
  else { r with epoch := x.resumedTarget.getD 0 }

/-- The fields of QUERY_STREAM (Table 8-4a). -/
def streamFields (h : CmdHead) (d : Device) (s : StreamNo) (item : Nat) : Report :=
  let r := streamAnswer h .ok
  let x := d.streams.get s
  if item = 0 then stateItem r x
  else if item = 1 then chainItem r x
  else if item ≤ 9 then markItem r x (item - 2)
  else if item ≤ 25 then historyItem r x (item - 10)
  else rollbackItem r s x d.engine

/-- QUERY_STREAM (R151). -/
def runQueryStream (h : CmdHead) (item : BitVec 8) (d : Device) : Device :=
  match targetStream h with
  | none => commandDone (streamAnswer h .badArgument) d
  | some s =>
    if item.toNat ≤ 26 then commandDone (streamFields h d s item.toNat) d
    else commandDone (streamAnswer h .badArgument) d

/-- DEVICE_CLEAR (R152). -/
def runDeviceClear (d : Device) : Device := deviceCheck .command .none d

/-! ## Regions (R10 to R12) -/

/-- The argument check of SET_REGION (R10). -/
def regionArgs (h : CmdHead) (base : BitVec 64) (exponent stream : BitVec 8) : Option (RegionNo × Option StreamNo) :=
  match targetRegion h, bindingOf stream with
  | some r, some b =>
    if 12 ≤ exponent.toNat ∧ exponent.toNat ≤ 40 ∧ base.toNat % 2 ^ exponent.toNat = 0 ∧ base.toNat < Config.addressSpace
    then some (r, b) else none
  | _, _ => none

/-- SET_REGION (R10). -/
def runSetRegion (h : CmdHead) (base : BitVec 64) (exponent stream : BitVec 8) (d : Device) : Device :=
  match regionArgs h base exponent stream with
  | none => commandDone (regionDone h .badArgument) d
  | some (r, b) =>
    if (d.regions.get r).decodes then commandDone (regionDone h .regionInUse) d
    else if overlapPasses d r base.toNat exponent.toNat then
      commandDone (regionDone h .ok)
        (d.withRegion r fun e => { e with base := base.toNat, exponent := exponent.toNat, stream := b })
    else commandDone (regionDone h .overlap) d

/-- The region's stream or its degradation refuses a SET_MODE (R11). -/
def modeBusy (d : Device) (e : Region) : Bool :=
  e.degrading || (match e.stream with
    | some s => (d.streams.get s).state == .rollingBack || (d.streams.get s).state == .resuming
    | none => false)

/-- The status of a SET_MODE on a region (R11). -/
def modeStatus (d : Device) (r : RegionNo) (m : Mode) : Status :=
  let e := d.regions.get r
  if modeBusy d e then .streamBusy
  else if m = .journal ∧ e.stream = none then .noStream
  else if m ≠ .off ∧ overlapPasses d r e.base e.exponent = false then .overlap
  else .ok

/-- SET_MODE (R11, R12). -/
def runSetMode (h : CmdHead) (mode : BitVec 8) (d : Device) : Device :=
  match targetRegion h, Mode.ofCode mode.toNat with
  | some r, some m =>
    let status := modeStatus d r m
    let d := commandDone (regionDone h status) d
    if status = .ok then acceptMode r m h.tag d else d
  | _, _ => commandDone (regionDone h .badArgument) d

/-! ## Streams -/

/-- The stream's operation slot is occupied, or it is ROLLING_BACK or RESUMING (R147). -/
def Stream.busy (x : Stream) : Bool := x.operation.isSome || x.state == .rollingBack || x.state == .resuming

/-- The stream is ACTIVE or EXHAUSTED. -/
def Stream.running (x : Stream) : Bool := x.state == .active || x.state == .exhausted

/-- A stream's command refused. -/
def refuse (h : CmdHead) (status : Status) (d : Device) : Device := commandDone (streamAnswer h status) d

/-- The anchor address of an ATTACH passes (R128). -/
def anchorPlaced (d : Device) (anchor : BitVec 64) : Bool :=
  decide (anchor.toNat % 2048 = 0) && decide (anchor.toNat < Config.addressSpace) && !meetsWindow d.winsel anchor.toNat 2048

/-- A descriptor address passes (R73, R128). -/
def descriptorPlaced (a : BitVec 64) : Bool := decide (a.toNat % 32 = 0) && decide (a.toNat < Config.addressSpace)

/-- ATTACH FRESH (R128, R129). -/
def runAttachFresh (h : CmdHead) (policy stall : BitVec 8) (label : BitVec 32) (anchor first : BitVec 64) (d : Device) :
    Device :=
  match targetStream h with
  | none => refuse h .badArgument d
  | some s =>
    if !(anchorPlaced d anchor && descriptorPlaced first && decide (policy.toNat ≤ 1) && decide (stall.toNat ≤ 11)) then
      refuse h .badArgument d
    else if (d.streams.get s).busy then refuse h .streamBusy d
    else if (d.streams.get s).attached then refuse h .streamState d
    else takeFresh s h.tag (Policy.ofCode policy.toNat) (stallOfCode stall.toNat) label anchor.toNat first.toNat d

/-- ATTACH RESUME (R128, R132). -/
def runAttachResume (h : CmdHead) (anchor : BitVec 64) (d : Device) : Device :=
  match targetStream h with
  | none => refuse h .badArgument d
  | some s =>
    if !anchorPlaced d anchor then refuse h .badArgument d
    else if (d.streams.get s).busy then refuse h .streamBusy d
    else if (d.streams.get s).attached then refuse h .streamState d
    else takeResume s h.tag anchor.toNat d

/-- A region bound to the stream has requested or effective mode JOURNAL (R14, R81). -/
def journaling (d : Device) (s : StreamNo) : Bool :=
  (boundRegions d s).any fun r => (d.regions.get r).requested == .journal || (d.regions.get r).effective == .journal

/-- DETACH of an ACTIVE or EXHAUSTED stream is taken (R81). -/
def takeDetach (s : StreamNo) (tag : BitVec 16) (d : Device) : Device :=
  detachCaptures s (d.withStream s fun x => { x with
    operation := some ⟨.detach, tag, 0, 0, 0, 0, 0⟩, state := .detaching, stallStart := none })

/-- DETACH (R81). -/
def runDetach (h : CmdHead) (d : Device) : Device :=
  match targetStream h with
  | none => refuse h .badArgument d
  | some s =>
    let x := d.streams.get s
    if x.busy then refuse h .streamBusy d
    else if x.running then (if journaling d s then refuse h .streamState d else takeDetach s h.tag d)
    else if x.lost then commandDone (streamAnswer h .ok) (detachStream s d)
    else refuse h .streamState d

/-- EXTEND (R73); its target is chosen by EXTEND_TARGET_CHOICE. -/
def runExtend (h : CmdHead) (descriptor : BitVec 64) (d : Device) : Device :=
  match targetStream h with
  | none => refuse h .badArgument d
  | some s =>
    let x := d.streams.get s
    if !descriptorPlaced descriptor then refuse h .badArgument d
    else if x.extension.isSome || x.state == .rollingBack || x.state == .resuming then refuse h .streamBusy d
    else if x.running || x.state == .detaching then
      d.withStream s fun x => { x with extension := some ⟨h.tag, descriptor.toNat, .choosing⟩ }
    else refuse h .streamState d

/-- A MARK is taken (R92); its record is placed by RECORD_PLACEMENT. -/
def takeMark (s : StreamNo) (tag : BitVec 16) (label : BitVec 32) (d : Device) : Device :=
  let e := (d.streams.get s).epoch.getD 0 + 1
  (removeStreamEntries s d).withStream s fun x => { x with
    operation := some ⟨.mark, tag, e, label, 0, 0, 0⟩, epoch := some e, saturated := false
    pendingMark := some ⟨e, label, tag, none⟩ }

/-- MARK (R91, R92). -/
def runMark (h : CmdHead) (label : BitVec 32) (d : Device) : Device :=
  match targetStream h with
  | none => refuse h .badArgument d
  | some s =>
    let x := d.streams.get s
    if x.busy then refuse h .streamBusy d
    else if !x.running then refuse h .streamState d
    else if Config.topNumber ≤ x.epoch.getD 0 then refuse h .epochLimit d
    else takeMark s h.tag label d

/-- A RELEASE is taken (R98). -/
def takeRelease (s : StreamNo) (tag : BitVec 16) (e : Nat) (d : Device) : Device :=
  let held := (d.streams.get s).marks.length
  let d := retireWhile (fun m => decide (m.epoch < e)) s .released held d
  let x := d.streams.get s
  offerAnchor s .release (d.withStream s fun x' => { x'.freeSegments with
    operation := some ⟨.release, tag, e, 0, 0, held - x.marks.length, x.freeable⟩ })

/-- RELEASE (R97, R98). -/
def runRelease (h : CmdHead) (epoch : BitVec 32) (d : Device) : Device :=
  match targetStream h with
  | none => refuse h .badArgument d
  | some s =>
    let x := d.streams.get s
    if epoch = 0 then refuse h .badArgument d
    else if x.busy then refuse h .streamBusy d
    else if !x.running then refuse h .streamState d
    else if x.marks.any fun m => m.epoch == epoch.toNat then takeRelease s h.tag epoch.toNat d
    else refuse h .noSuchMark d

/-- A ROLLBACK refused: its epoch as given (Table 6-3). -/
def refuseRollback (h : CmdHead) (epoch : BitVec 32) (status : Status) (d : Device) : Device :=
  commandDone { streamAnswer h status with epoch := epoch.toNat } d

/-- ROLLBACK (R104, R105). -/
def runRollback (h : CmdHead) (epoch : BitVec 32) (d : Device) : Device :=
  match targetStream h with
  | none => refuseRollback h epoch .badArgument d
  | some s =>
    let x := d.streams.get s
    if epoch = 0 then refuseRollback h epoch .badArgument d
    else if x.busy then refuseRollback h epoch .streamBusy d
    else if !x.running then refuseRollback h epoch .streamState d
    else if d.engine.phase ≠ .idle then refuseRollback h epoch .engineBusy d
    else
      match x.marks.find? fun m => m.epoch == epoch.toNat with
      | some m => takeRollback s h.tag m d
      | none => refuseRollback h epoch .noSuchMark d

/-! ## Taking a record (R143 to R146) -/

/-- A record is executed: the chain waits for its tag when it carries CHAIN (R146). -/
def executing (h : CmdHead) (run : Device → Device) (d : Device) : Device :=
  run (d.withCommand fun c => { c with chain := if h.chain then .waiting h.tag else .none })

/-- A record of an opcode is skipped (R146). -/
def skipRecord (h : CmdHead) (opcode : Nat) (d : Device) : Device :=
  let d := d.withCommand fun c => { c with chain := if h.chain then .skipping else .none }
  commandDone { plainDone h .skipped with
    region := if targetsRegion opcode then h.target.toNat else 0xFF
    stream := if targetsStream opcode then h.target.toNat else 0xFF } d

/-- The chain waits for a command (R146). -/
def ChainState.isWaiting : ChainState → Bool
  | .waiting _ => true
  | _ => false

/-- A record of this opcode is presented for taking: not taken while the unit is paused or the chain waits, skipped while the
chain skips, executed otherwise (R143, R145, R146). -/
def takeRecord (h : CmdHead) (opcode : Nat) (run : Device → Device) (d : Device) : Device :=
  if paused d ∨ d.command.chain.isWaiting then d
  else if d.command.chain = .skipping then skipRecord h opcode d
  else executing h run d

/-- An opcode that names no command (R145). -/
def runUnknown (h : CmdHead) (opcode : Nat) (d : Device) : Device :=
  commandDone { plainDone h .badOpcode with first := opcode } d

/-- ATTACH by its variant code; a code other than 0 or 1 fails the argument check (11.3). -/
def runAttach (h : CmdHead) (r : Line) (d : Device) : Device :=
  let anchor := BitVec.ofNat 64 (bytesAt r 0x10 8)
  match bytesAt r 0x08 1 with
  | 0 => runAttachFresh h (BitVec.ofNat 8 (bytesAt r 0x09 1)) (BitVec.ofNat 8 (bytesAt r 0x0A 1))
      (BitVec.ofNat 32 (bytesAt r 0x0C 4)) anchor (BitVec.ofNat 64 (bytesAt r 0x18 8)) d
  | 1 => runAttachResume h anchor d
  | _ => refuse h .badArgument d

/-- A fetched record is decoded by its opcode and executed (R145, Table 11-2). -/
def runRecord (r : Line) (d : Device) : Device :=
  let h := recordHead r
  let b (o : Nat) : BitVec 8 := BitVec.ofNat 8 (bytesAt r o 1)
  let w : BitVec 32 := BitVec.ofNat 32 (bytesAt r 0x08 4)
  let q : BitVec 64 := BitVec.ofNat 64 (bytesAt r 0x08 8)
  match recordOpcode r with
  | 0x00 => runNop h d
  | 0x01 => runIdentify h d
  | 0x02 => runConfigure h (b 0x08) (b 0x09) d
  | 0x10 => runSetRegion h q (b 0x10) (b 0x11) d
  | 0x11 => runSetMode h (b 0x08) d
  | 0x12 => runQueryRegion h d
  | 0x20 => runAttach h r d
  | 0x21 => runDetach h d
  | 0x22 => runExtend h q d
  | 0x23 => runMark h w d
  | 0x24 => runRelease h w d
  | 0x25 => runRollback h w d
  | 0x26 => runQueryStream h (b 0x08) d
  | 0x3F => runDeviceClear d
  | o => runUnknown h o d

/-- The address of the ring entry at head (R142). -/
def headEntry (c : CommandUnit) : Nat := c.base + c.head * 64

/-- The head advances and a head-line write is offered; the fetch state becomes IDLE (R143 steps 1 and 2). -/
def advanceHead (d : Device) : Device :=
  (offerHeadLine (d.withCommand fun c => { c with head := (c.head + 1) % 2 ^ c.exponent })).withCommand
    fun c => { c with fetch := .idle }

/-- An unreadable record is taken (R144). -/
def takeUnreadable (address index : Nat) (d : Device) : Device :=
  commandDone { kind := .commandDone, tag := 0xFFFF, status := .fetchError, address := address, first := index }
    (d.withCommand fun c => { c with chain := .skipping })

/-- A readable record is skipped or executed (R143 step 3). -/
def takeReadable (r : Line) (d : Device) : Device :=
  if d.command.chain = .skipping then skipRecord (recordHead r) (recordOpcode r) d
  else executing (recordHead r) (runRecord r) d

/-- A record is held and may be taken (R143). -/
def takingAllowed (d : Device) : Bool := !paused d && !d.command.chain.isWaiting

/-- A record held when the ring has been emptied is discarded (R143). -/
def discardRecord (d : Device) : Device := d.withCommand fun c => { c with fetch := .idle }

/-- COMMAND_RECORD_TAKEN (R143). -/
def tryCommandRecordTaken (d : Device) : Option Device :=
  match d.command.fetch with
  | .held r =>
    if takingAllowed d then
      some (if d.command.head = d.command.tail then discardRecord d else takeReadable r (advanceHead d))
    else none
  | .unreadable =>
    if takingAllowed d then
      some (if d.command.head = d.command.tail then discardRecord d
        else takeUnreadable (headEntry d.command) d.command.head (advanceHead d))
    else none
  | _ => none

/-- COMMAND_FETCH_ISSUE (R142). -/
def tryCommandFetchIssue (d : Device) : Option Device :=
  if d.command.ringSet ∧ d.command.head ≠ d.command.tail ∧ d.command.fetch = .idle ∧ takingAllowed d ∧ fenceClear d then
    some (offer (readOf .commandFetch (headEntry d.command))
      (d.withCommand fun c => { c with fetch := .fetching (headEntry c) }))
  else none

/-- A command fetch is answered (R142, R144). -/
def fetchAnswered (a : MemAnswer) (d : Device) : Device :=
  match d.command.fetch with
  | .fetching _ => d.withCommand fun c => { c with fetch := match a with | .data l => .held l | _ => .unreadable }
  | _ => d

end Sys2Proof.Machine
end

