-- ==== Sys2Proof/Machine/Answers.lean ====
section
/-! DEFINITION. What a message of the memory port does (R29 to R31): who is told of an answer, stray and abandoned answers, the
memory response limit. -/
namespace Sys2Proof.Machine

/-! ## Anchor writes (R126) -/

/-- The operation in progress completes OK with this COMMAND_DONE, and its slot is free (R96, R98, R82). -/
def completeOperation (s : StreamNo) (report : Operation → Report) (d : Device) : Device :=
  match (d.streams.get s).operation with
  | none => d
  | some o => streamDone s (report o) (d.withStream s fun x => { x with operation := none })

/-- The COMMAND_DONE of a MARK (Table 5-1). -/
def markDone (o : Operation) : Report :=
  { kind := .commandDone, tag := o.tag, epoch := o.epoch, label := o.label.toNat, sequence := o.sequence,
    first := o.retired, second := o.freed }

/-- The COMMAND_DONE of a RELEASE (Table 5-1). -/
def releaseDone (o : Operation) : Report :=
  { kind := .commandDone, tag := o.tag, epoch := o.epoch, first := o.retired, second := o.freed }

/-- The final anchor of a DETACH is acknowledged (R82). An EXTEND taken since its offer ends FAILED with the stream, without its
effect and without a loss cause, and its requests are withdrawn or their answers discarded (R143, Table 8-2; log 43). -/
def detachComplete (s : StreamNo) (d : Device) : Device :=
  let x := d.streams.get s
  let d := detachStream s (abandon (isChainJobOf s) d)
  let d := match x.operation with
    | some o => streamDone s { kind := .commandDone, tag := o.tag, second := x.committed.getD 0 } d
    | none => d
  match x.extension with
  | some e => streamDone s { kind := .commandDone, tag := e.tag, status := .failed, address := e.descriptor } d
  | none => d

/-- The anchor write of a segment entry is acknowledged (R69). -/
def entryAnchored (s : StreamNo) (entries : Nat) (d : Device) : Device :=
  fetchFollowing s (reportEntered s entries (d.withStream s fun x => { x with entering := false }))

/-- The engine waits for this anchor, and no device check is handled (R117). -/
def engineAwaits (d : Device) (s : StreamNo) (p : Phase) : Bool := enginePhase d s p && normal d

/-- One owner is told of an acknowledged anchor write (R126, Table 7-2). A command completes so during a device check's handling
too (log 52). -/
def tellOwner (s : StreamNo) (d : Device) (o : Occasion) : Device :=
  match o with
  | .attachFirst => freshAnchored s d
  | .attachSecond => freshComplete s d
  | .entry n => entryAnchored s n d
  | .markCommit => completeOperation s markDone d
  | .release => completeOperation s releaseDone d
  | .pending _ => if engineAwaits d s .pendingAnchor then enterRestoring s d else d
  | .final => if engineAwaits d s .finalAnchor then completeRollback s d else d
  | .resume => resumeComplete s d
  | .detach => detachComplete s d
  | .loss e => offerAnchorReads s (endDegradations s e (d.withStream s fun x => { x with invalidation := .none }))
  | .check => setInvalidation s .invalidated .none d

/-- The Check Unit's invalidation follows the stream's earlier anchor write, and its state ends when all results are known
(R167). -/
def checkAfterAnchor (s : StreamNo) (d : Device) : Device :=
  invalidationEnd
    (if d.check.state = .invalidate ∧ d.check.stages.get s = .awaiting then offerInvalidation s d else d)

/-- An anchor write is acknowledged (R126): generation and newest copy move, the freed list is tested (R90), each owner is
told, in the order in which their offers joined the write, an order of the model's own (log 46). -/
def anchorDone (s : StreamNo) (w : AnchorWrite) (d : Device) : Device :=
  checkAfterAnchor s (w.occasions.foldl (tellOwner s) (testFreed s (d.withStream s (anchorAcknowledged w))))

/-- What the owner's rule makes of a failed anchor write (R126, R131, R137, R79, R167). -/
def anchorOutcome (s : StreamNo) (w : AnchorWrite) (d : Device) : Device :=
  if (lossEpoch w.occasions).isSome then deviceCheckFor (some s) .invalidationWrite .none d
  else if w.occasions.contains .check then setInvalidation s .notInvalidated .none d
  else if w.occasions.isEmpty then d
  else streamFault s .anchorWrite 0 w.address d

/-- The write is one of an ATTACH in OPENING or RESUMING: it still has an owner, and is no invalidation (R131, R137). A write of the
stream's earlier life lost its owners at the loss (R78). -/
def isAttachWrite (x : Stream) (w : AnchorWrite) : Bool :=
  (x.state == .opening || x.state == .resuming) && !w.occasions.isEmpty && (lossEpoch w.occasions).isNone
  && !w.occasions.contains .check

/-- The other lines of a failed anchor write: of an ATTACH's, those still waiting are withdrawn (R131, R137), during a device
check's handling too (log 53); of any other, they are still written (log 34). The answers to those issued are discarded (R126). -/
def dropAnchorLines (s : StreamNo) (w : AnchorWrite) (d : Device) : Device :=
  if isAttachWrite (d.streams.get s) w then abandon (isAnchorWriteOf s) d else discardLater (isAnchorWriteOf s) d

/-- An anchor write fails (R126). -/
def anchorFailed (s : StreamNo) (w : AnchorWrite) (d : Device) : Device :=
  let d := dropAnchorLines s w (d.withStream s fun x => { x with anchorOutstanding := none })
  checkAfterAnchor s (anchorOutcome s w d)

/-- A line of an anchor write is answered (R126). -/
def anchorLineAnswered (s : StreamNo) (a : MemAnswer) (d : Device) : Device :=
  match (d.streams.get s).anchorOutstanding with
  | none => d
  | some w =>
    match a with
    | .error => anchorFailed s w d
    | _ =>
      if w.acknowledged + 1 = 16 then anchorDone s w d
      else d.withStream s fun x => { x with anchorOutstanding := some { w with acknowledged := w.acknowledged + 1 } }

/-! ## Answers (R29 to R31) -/

/-- The response upstream to memory's answer (R29). -/
def upstreamResponse : MemAnswer → Response
  | .data l => .data l
  | .done => .done
  | .error => .error

/-- The answer is of the wrong kind for the request (R31). -/
def wrongKind (r : PortRequest) : MemAnswer → Bool
  | .data _ => r.write
  | .done => !r.write
  | .error => false

/-- Whether the answer releases the request's line at once: not for a capture read, whose line is its write's or its slot's
(R25, R49), nor for the READ of a descriptor update (R74). -/
def Job.releasesAtAnswer : Job → Bool
  | .capture _ | .updateRead _ => false
  | _ => true

/-- The owner of a request acts on its answer. -/
def tellJob (r : PortRequest) (a : MemAnswer) (d : Device) : Device :=
  match r.job with
  | .forward t => respond t (upstreamResponse a) d
  | .capture k => captureAnswered k r.line a d
  | .slotRecord k _ => slotRecordAnswered k r.line a d
  | .markRecord s _ => markRecordAnswered s a d
  | .commandFetch => fetchAnswered a d
  | .descriptor s => descriptorAnswered s a d
  | .firstDescriptor s => firstDescriptorAnswered s a d
  | .updateRead s => updateReadAnswered s r.line a d
  | .updateWrite s => updateWriteAnswered s a d
  | .anchorRead s c i => anchorReadAnswered s c i a d
  | .anchorWrite s _ => anchorLineAnswered s a d
  | .resumeDescriptor s => resumeDescriptorAnswered s a d
  | .scanRead s n i => scanReadAnswered s n i a d
  | .journalRead n i => journalReadAnswered n i a d
  | .restore n => restoreAnswered n a d
  | .truncationDescriptor s => truncationAnswered s a d
  | .report => reportAnswered a d
  | .headLine => headLineAnswered a d
  | .lateHeadLine => headLineOver d
  | .faultFirst => faultFirstAnswered d
  | .faultClosing => faultClosingAnswered (a == .done) d
  | .discard _ => d

/-- An outstanding request is answered: its tag returns to the pool, its line is released, its owner is told (R29, R32). -/
def answerIssued (i : Issued) (a : MemAnswer) (d : Device) : Device :=
  let d := freeTag i.tag d
  let d := if i.request.job.releasesAtAnswer then releaseLine i.request.line d else d
  tellJob i.request a d

/-- An abandoned tag is answered: the answer is discarded, the tag returns to the pool, the lock is released (R30). A head-line
write so answered leaves its position (log 62). -/
def answerAbandoned (i : Issued) (d : Device) : Device :=
  let d := freeTag i.tag d
  match i.request.job with
  | .capture k => abandonedCaptureAnswered k i.request.line d
  | .headLine | .lateHeadLine => headLineOver (releaseLine i.request.line d)
  | _ => releaseLine i.request.line d

/-- A stray response (R31). -/
def strayAnswer (d : Device) : Device := deviceCheck .strayResponse .none d

/-- A message of the memory port (R29 to R31). -/
def memoryAnswer (t : MemTag) (a : MemAnswer) (d : Device) : Device :=
  match issuedAt d t with
  | none => strayAnswer d
  | some i =>
    if i.abandoned then answerAbandoned i d
    else if wrongKind i.request a then strayAnswer d
    else answerIssued i a d

/-! ## The memory response limit (R30) -/

/-- A tag is abandoned; a forwarded request has no owner any more. -/
def markAbandoned (t : MemTag) (d : Device) : Device :=
  (d.withArbiter fun a => { a with issued := a.issued.map fun i =>
    if i.tag = t then
      { i with abandoned := true, request := if i.forwarded then i.request.ownerless else i.request }
    else i }).withCheck fun c => { c with holdSet := c.holdSet.filter (· != t) }

/-- ERROR upstream for a forwarded request that reaches the limit (R30). -/
def answerForwarded (j : Job) (d : Device) : Device :=
  match j with
  | .forward t => respond t .error d
  | _ => d

/-- MEMORY_RESPONSE_LIMIT: an outstanding request reaches its limit (R30, R168, R169). A closing line that is queued behind the
request whose tag is now abandoned stays in the queue, and the device clear waits for it (log 59). -/
def tryMemoryResponseLimit (t : MemTag) (d : Device) : Option Device :=
  match issuedAt d t with
  | none => none
  | some i =>
    if i.abandoned then none
    else
      let d := reach (i.grantedAt + Config.responseLimit) d
      let d := answerForwarded i.request.job (markAbandoned t d)
      if d.check.state = .close ∧ i.request.job = .faultClosing then some (deviceClear d)
      else some (deviceCheck .memoryTimeout .none d)

end Sys2Proof.Machine
end

