-- ==== Sys2Proof/Machine/Settle.lean ====
section
/-! DEFINITION. What follows at the same event: the inner steps whose conditions hold, one after another, and the outputs that
are evaluated at the end of an event (95_what_each_step_holds.md; log 1, log 2). -/
namespace Sys2Proof.Machine

/-- The first device that a family of inner steps gives, its index ascending. -/
def firstOf {n : Nat} (f : Fin n → Device → Option Device) (d : Device) : Option Device :=
  (indices n).findSome? fun i => f i d

/-- The inner steps of streams, slots and the engine, in their order (log 2). -/
def streamStep (d : Device) : Option Device :=
  (firstOf trySlotQueueService d).or <|
  (firstOf tryRecordPlacement d).or <|
  (firstOf tryExtendTargetChoice d).or <|
  (tryEngineClaimHandoff d).or <|
  (tryResumedHoldingEnd d).or <|
  (tryHoldingEnd d).or <|
  (firstOf tryDetachFinalAnchor d).or <|
  ((nextAnchorIssue d).bind fun s => tryAnchorWriteIssue s d)

/-- The inner steps of the Check Unit, the Report Unit and the Command Unit, in their order (log 2). -/
def unitStep (d : Device) : Option Device :=
  (tryHoldSetDrained d).or <|
  (tryHeadLineWriteIssue d).or <|
  (tryReportWriteIssue d).or <|
  (tryCommandRecordTaken d).or <|
  (tryCommandFetchIssue d)

/-- The next inner step whose conditions hold, in the order of log 2. -/
def innerStep (d : Device) : Option Device := (pathStep d).or ((streamStep d).or (unitStep d))

/-- Inner steps as long as one is found, at most `n` (log 3). -/
def settle : Nat → Device → Device
  | 0, d => d
  | n + 1, d => match innerStep d with
    | none => d
    | some d' => settle n d'

/-- No inner step is left to do. -/
def quiet (d : Device) : Bool := (innerStep d).isNone

/-- The age count at a moment at which no C5 request is eligible (R34, log 25). -/
def ageNow (d : Device) : Nat :=
  if (oldestOf d .c5).isNone ∧ d.arbiter.age ≠ Config.ageBound then 0 else d.arbiter.age

/-- The outputs that an event leaves: the age count and NOTIFY_N (R34, R161). -/
def evaluate (d : Device) : Device :=
  { d with arbiter := { d.arbiter with age := ageNow d }, notify := notifyCondition d }

/-- The end of an event: what follows is run, and the outputs are evaluated. -/
def finish (d : Device) : Device := evaluate (settle Config.innerSteps d)

/-- An event as a step of the model: its effect on the part, then the end of the event. The queue is untouched. -/
def event (effect : Device → Device) (s : State) : Host.Outcome State Fault Refusal :=
  .next { s with dev := finish (effect s.dev) }

/-- An event whose step reads an entry that may fail its check code (R162, log 10). -/
def readingEvent (failed : Option CheckDetail) (effect : Device → Device) (s : State) : Host.Outcome State Fault Refusal :=
  event (fun d => internalFailure failed (effect d)) s

/-- An inner step sent as a command: it is done where its conditions hold, and changes nothing otherwise (log 4). -/
def innerEvent (step : Device → Option Device) (s : State) : Host.Outcome State Fault Refusal :=
  event (fun d => (step d).getD d) s

end Sys2Proof.Machine
end

