-- ==== Sys2Proof/Machine/CheckSteps.lean ====
section
/-! DEFINITION. The commands of the Check Unit, and the messages of the memory port that answer nothing (Chapter 10, R30, R31). -/
namespace Sys2Proof.Machine

/-- HOLD_SET_DRAINED (R165, R166). -/
def execHoldSetDrained (s : State) : Host.Outcome State Fault Refusal :=
  innerEvent tryHoldSetDrained s

/-- FAULT_RECORD_FIRST_LINE_ANSWER (R166). -/
def execFaultRecordFirstLineAnswer (tag : MemTag) (answer : MemAnswer) (s : State) :
    Host.Outcome State Fault Refusal :=
  event (memoryAnswer tag answer) s

/-- FAULT_RECORD_CLOSING_LINE_ANSWER (R168). -/
def execFaultRecordClosingLineAnswer (tag : MemTag) (answer : MemAnswer) (s : State) :
    Host.Outcome State Fault Refusal :=
  event (memoryAnswer tag answer) s

/-- ABANDONED_TAG_ANSWER (R30). -/
def execAbandonedTagAnswer (tag : MemTag) (answer : MemAnswer) (s : State) : Host.Outcome State Fault Refusal :=
  event (memoryAnswer tag answer) s

/-- STRAY_RESPONSE (R31, R162). -/
def execStrayResponse (tag : Checked MemTag) (answer : MemAnswer) (s : State) :
    Host.Outcome State Fault Refusal :=
  readingEvent tag.failed (memoryAnswer tag.value answer) s

end Sys2Proof.Machine
end

