-- ==== Sys2Proof/Machine/CommandSteps.lean ====
section
/-! DEFINITION. The commands of the Command Unit and the Report Unit: its fetches, its takings, the command records, head lines and reports (Chapters 8 and 9). -/
namespace Sys2Proof.Machine

/-- COMMAND_FETCH_ISSUE (R142). -/
def execCommandFetchIssue (s : State) : Host.Outcome State Fault Refusal :=
  innerEvent tryCommandFetchIssue s

/-- COMMAND_FETCH_ANSWER (R142, R144). -/
def execCommandFetchAnswer (tag : MemTag) (answer : MemAnswer) (s : State) : Host.Outcome State Fault Refusal :=
  event (memoryAnswer tag answer) s

/-- COMMAND_RECORD_TAKEN (R143). -/
def execCommandRecordTaken (s : State) : Host.Outcome State Fault Refusal :=
  innerEvent tryCommandRecordTaken s

/-- NOP (R148). -/
def execNop (head : CmdHead) (s : State) : Host.Outcome State Fault Refusal :=
  event (takeRecord head 0x00 (runNop head)) s

/-- IDENTIFY (R148). -/
def execIdentify (head : CmdHead) (s : State) : Host.Outcome State Fault Refusal :=
  event (takeRecord head 0x01 (runIdentify head)) s

/-- CONFIGURE (R149). -/
def execConfigure (head : CmdHead) (hold notify : BitVec 8) (s : State) : Host.Outcome State Fault Refusal :=
  event (takeRecord head 0x02 (runConfigure head hold notify)) s

/-- SET_REGION (R10). -/
def execSetRegion (head : CmdHead) (base : BitVec 64) (exponent stream : BitVec 8) (s : State) :
    Host.Outcome State Fault Refusal :=
  event (takeRecord head 0x10 (runSetRegion head base exponent stream)) s

/-- SET_MODE (R11, R12). -/
def execSetMode (head : CmdHead) (mode : BitVec 8) (s : State) : Host.Outcome State Fault Refusal :=
  event (takeRecord head 0x11 (runSetMode head mode)) s

/-- QUERY_REGION (R150). -/
def execQueryRegion (head : CmdHead) (s : State) : Host.Outcome State Fault Refusal :=
  event (takeRecord head 0x12 (runQueryRegion head)) s

/-- ATTACH FRESH (R128, R129). -/
def execAttachFresh (head : CmdHead) (policy stall : BitVec 8) (label : BitVec 32) (anchor first : BitVec 64) (s : State) :
    Host.Outcome State Fault Refusal :=
  event (takeRecord head 0x20 (runAttachFresh head policy stall label anchor first)) s

/-- ATTACH RESUME (R128, R132). -/
def execAttachResume (head : CmdHead) (anchor : BitVec 64) (s : State) : Host.Outcome State Fault Refusal :=
  event (takeRecord head 0x20 (runAttachResume head anchor)) s

/-- DETACH (R81). -/
def execDetach (head : CmdHead) (s : State) : Host.Outcome State Fault Refusal :=
  event (takeRecord head 0x21 (runDetach head)) s

/-- EXTEND (R73). -/
def execExtend (head : CmdHead) (descriptor : BitVec 64) (s : State) : Host.Outcome State Fault Refusal :=
  event (takeRecord head 0x22 (runExtend head descriptor)) s

/-- MARK (R91, R92). -/
def execMark (head : CmdHead) (label : BitVec 32) (s : State) : Host.Outcome State Fault Refusal :=
  event (takeRecord head 0x23 (runMark head label)) s

/-- RELEASE (R97, R98). -/
def execRelease (head : CmdHead) (epoch : BitVec 32) (s : State) : Host.Outcome State Fault Refusal :=
  event (takeRecord head 0x24 (runRelease head epoch)) s

/-- ROLLBACK (R104, R105). -/
def execRollback (head : CmdHead) (epoch : BitVec 32) (s : State) : Host.Outcome State Fault Refusal :=
  event (takeRecord head 0x25 (runRollback head epoch)) s

/-- QUERY_STREAM (R151). -/
def execQueryStream (head : CmdHead) (item : BitVec 8) (s : State) : Host.Outcome State Fault Refusal :=
  event (takeRecord head 0x26 (runQueryStream head item)) s

/-- DEVICE_CLEAR (R152, R162). -/
def execDeviceClear (head : Checked CmdHead) (s : State) : Host.Outcome State Fault Refusal :=
  readingEvent head.failed (takeRecord head.value 0x3F runDeviceClear) s

/-- HEAD_LINE_WRITE_ISSUE (R143). -/
def execHeadLineWriteIssue (s : State) : Host.Outcome State Fault Refusal :=
  innerEvent tryHeadLineWriteIssue s

/-- HEAD_LINE_WRITE_ANSWER (R143, R156, R162). -/
def execHeadLineWriteAnswer (tag : Checked MemTag) (answer : MemAnswer) (s : State) :
    Host.Outcome State Fault Refusal :=
  readingEvent tag.failed (memoryAnswer tag.value answer) s

/-- REPORT_WRITE_ISSUE (R155). -/
def execReportWriteIssue (s : State) : Host.Outcome State Fault Refusal :=
  innerEvent tryReportWriteIssue s

/-- REPORT_WRITE_ANSWER (R155, R156, R162). -/
def execReportWriteAnswer (tag : Checked MemTag) (answer : MemAnswer) (s : State) :
    Host.Outcome State Fault Refusal :=
  readingEvent tag.failed (memoryAnswer tag.value answer) s

end Sys2Proof.Machine
end

