-- ==== Sys2Proof/Machine/JournalSteps.lean ====
section
/-! DEFINITION. The commands of capture, placing, descriptors, anchors and ATTACH (Chapters 3, 4, 5 and 7). -/
namespace Sys2Proof.Machine

/-- STALL_LIMIT_EXPIRY (R72). -/
def execStallLimitExpiry (stream : StreamNo) (s : State) : Host.Outcome State Fault Refusal :=
  innerEvent (tryStallLimitExpiry stream) s

/-- CAPTURE_READ_ANSWER (R49, R57). -/
def execCaptureReadAnswer (tag : MemTag) (answer : MemAnswer) (s : State) : Host.Outcome State Fault Refusal :=
  event (memoryAnswer tag answer) s

/-- RECORD_PLACEMENT (R62, R63). -/
def execRecordPlacement (stream : StreamNo) (s : State) : Host.Outcome State Fault Refusal :=
  innerEvent (tryRecordPlacement stream) s

/-- RECORD_LINE_ANSWER (R51, R63, R66). -/
def execRecordLineAnswer (tag : MemTag) (answer : MemAnswer) (s : State) : Host.Outcome State Fault Refusal :=
  event (memoryAnswer tag answer) s

/-- DESCRIPTOR_FETCH_ANSWER (R67, R68, R129). -/
def execDescriptorFetchAnswer (tag : MemTag) (answer : MemAnswer) (s : State) : Host.Outcome State Fault Refusal :=
  event (memoryAnswer tag answer) s

/-- EXTEND_TARGET_CHOICE (R74). -/
def execExtendTargetChoice (stream : StreamNo) (s : State) : Host.Outcome State Fault Refusal :=
  innerEvent (tryExtendTargetChoice stream) s

/-- DESCRIPTOR_UPDATE_READ_ANSWER (R74). -/
def execDescriptorUpdateReadAnswer (tag : MemTag) (answer : MemAnswer) (s : State) :
    Host.Outcome State Fault Refusal :=
  event (memoryAnswer tag answer) s

/-- DESCRIPTOR_UPDATE_WRITE_ANSWER (R74 to R76). -/
def execDescriptorUpdateWriteAnswer (tag : MemTag) (answer : MemAnswer) (s : State) :
    Host.Outcome State Fault Refusal :=
  event (memoryAnswer tag answer) s

/-- ANCHOR_WRITE_ISSUE (R125). -/
def execAnchorWriteIssue (stream : StreamNo) (s : State) : Host.Outcome State Fault Refusal :=
  innerEvent (tryAnchorWriteIssue stream) s

/-- ANCHOR_WRITE_LINE_ANSWER (R126). -/
def execAnchorWriteLineAnswer (tag : MemTag) (answer : MemAnswer) (s : State) : Host.Outcome State Fault Refusal :=
  event (memoryAnswer tag answer) s

/-- DETACH_FINAL_ANCHOR (R82). -/
def execDetachFinalAnchor (stream : StreamNo) (s : State) : Host.Outcome State Fault Refusal :=
  innerEvent (tryDetachFinalAnchor stream) s

/-- ANCHOR_READ_ANSWER (R128). -/
def execAnchorReadAnswer (tag : MemTag) (answer : MemAnswer) (s : State) : Host.Outcome State Fault Refusal :=
  event (memoryAnswer tag answer) s

/-- RESUME_DESCRIPTOR_ANSWER (R132). -/
def execResumeDescriptorAnswer (tag : MemTag) (answer : MemAnswer) (s : State) : Host.Outcome State Fault Refusal :=
  event (memoryAnswer tag answer) s

/-- SCAN_READ_ANSWER (R133). -/
def execScanReadAnswer (tag : MemTag) (answer : MemAnswer) (s : State) : Host.Outcome State Fault Refusal :=
  event (memoryAnswer tag answer) s

end Sys2Proof.Machine
end

