-- ==== Sys2Proof/Machine/PathSteps.lean ====
section
/-! DEFINITION. The commands of the Request Path, the window, the Region Table and the Arbiter (Chapters 1 and 2), and the cold reset. -/
namespace Sys2Proof.Machine

/-- REQUESTER_READ (R18, R19, R22). -/
def execRequesterRead (tag : ReqTag) (line : Nat) (s : State) : Host.Outcome State Fault Refusal :=
  event (acceptRequest tag false line 0 0) s

/-- REQUESTER_WRITE (R18, R19, R22, R37). -/
def execRequesterWrite (tag : ReqTag) (line : Nat) (mask : Mask) (data : Line) (s : State) :
    Host.Outcome State Fault Refusal :=
  event (acceptRequest tag true line mask data) s

/-- RING_SETUP (R140). -/
def execRingSetup (value : BitVec 64) (s : State) : Host.Outcome State Fault Refusal :=
  event (judgeRingSetup value) s

/-- COMMAND_TAIL (R141). -/
def execCommandTail (value : BitVec 64) (admission : Nat) (s : State) : Host.Outcome State Fault Refusal :=
  event (judgeCommandTail value admission) s

/-- REPORT_SETUP (R154). -/
def execReportSetup (value : BitVec 64) (s : State) : Host.Outcome State Fault Refusal :=
  event (judgeReportSetup value) s

/-- REPORT_ACK (R157). -/
def execReportAck (value : BitVec 64) (s : State) : Host.Outcome State Fault Refusal :=
  event (judgeReportAck value) s

/-- FAULT_ACK (R170). -/
def execFaultAck (value : BitVec 64) (s : State) : Host.Outcome State Fault Refusal :=
  event (judgeFaultAck value) s

/-- REQUEST_ADMISSION (R4, R22). -/
def execRequestAdmission (region : RegionNo) (s : State) : Host.Outcome State Fault Refusal :=
  innerEvent (tryRequestAdmission region) s

/-- MODE_CHANGE_APPLIED (R7). -/
def execModeChangeApplied (region : RegionNo) (s : State) : Host.Outcome State Fault Refusal :=
  innerEvent (tryModeChangeApplied region) s

/-- LINE_GRANT (R24, R162). -/
def execLineGrant (line : Nat) (failed : Option CheckDetail) (s : State) : Host.Outcome State Fault Refusal :=
  readingEvent failed (fun d => (tryLineGrant line d).getD d) s

/-- SLOT_QUEUE_SERVICE (R47). -/
def execSlotQueueService (slot : SlotNo) (s : State) : Host.Outcome State Fault Refusal :=
  innerEvent (trySlotQueueService slot) s

/-- ARBITER_GRANT (R29, R33, R34). -/
def execArbiterGrant (tag : MemTag) (s : State) : Host.Outcome State Fault Refusal :=
  innerEvent (tryArbiterGrant tag) s

/-- HOLD_LIMIT_EXPIRY (R27, R28). -/
def execHoldLimitExpiry (tag : ReqTag) (s : State) : Host.Outcome State Fault Refusal :=
  innerEvent (tryHoldLimitExpiry tag) s

/-- MEMORY_RESPONSE_LIMIT (R30, R162). -/
def execMemoryResponseLimit (tag : Checked MemTag) (s : State) : Host.Outcome State Fault Refusal :=
  readingEvent tag.failed (fun d => (tryMemoryResponseLimit tag.value d).getD d) s

/-- FORWARDED_REQUEST_ANSWER (R29); the tag tells what is answered (log 5). -/
def execForwardedRequestAnswer (tag : MemTag) (answer : MemAnswer) (s : State) : Host.Outcome State Fault Refusal :=
  event (memoryAnswer tag answer) s

/-- COLD_RESET (R174): every block takes its cold values, and the straps are sampled. The queue is the sender's. -/
def execColdReset (winsel : BitVec 8) (s : State) : Host.Outcome State Fault Refusal :=
  .next { s with dev := Device.cold winsel }

end Sys2Proof.Machine
end

