-- ==== Sys2Proof/Machine/RollbackSteps.lean ====
section
/-! DEFINITION. The commands of the Rollback Engine (Chapter 6). -/
namespace Sys2Proof.Machine

/-- ENGINE_CLAIM_HANDOFF (R103, R118). -/
def execEngineClaimHandoff (s : State) : Host.Outcome State Fault Refusal :=
  innerEvent tryEngineClaimHandoff s

/-- HOLDING_END (R107). -/
def execHoldingEnd (s : State) : Host.Outcome State Fault Refusal :=
  innerEvent tryHoldingEnd s

/-- RESUMED_HOLDING_END (R118). -/
def execResumedHoldingEnd (s : State) : Host.Outcome State Fault Refusal :=
  innerEvent tryResumedHoldingEnd s

/-- JOURNAL_READ_ANSWER (R109). -/
def execJournalReadAnswer (tag : MemTag) (answer : MemAnswer) (s : State) : Host.Outcome State Fault Refusal :=
  event (memoryAnswer tag answer) s

/-- RESTORE_WRITE_ANSWER (R111). -/
def execRestoreWriteAnswer (tag : MemTag) (answer : MemAnswer) (s : State) : Host.Outcome State Fault Refusal :=
  event (memoryAnswer tag answer) s

/-- TRUNCATION_DESCRIPTOR_ANSWER (R114). -/
def execTruncationDescriptorAnswer (tag : MemTag) (answer : MemAnswer) (s : State) :
    Host.Outcome State Fault Refusal :=
  event (memoryAnswer tag answer) s

end Sys2Proof.Machine
end

