-- ==== Sys2Proof/Machine/Dispatch.lean ====
section
/-! DEFINITION. One arm per command. -/
namespace Sys2Proof.Machine

/-- The command's effect on everything but the queue. -/
def exec (i : Instr) (s : State) : Host.Outcome State Fault Refusal :=
  match i with
  | .requesterRead tag line => Sys2Proof.Machine.execRequesterRead tag line s
  | .requesterWrite tag line mask data => Sys2Proof.Machine.execRequesterWrite tag line mask data s
  | .ringSetup value => Sys2Proof.Machine.execRingSetup value s
  | .commandTail value admission => Sys2Proof.Machine.execCommandTail value admission s
  | .reportSetup value => Sys2Proof.Machine.execReportSetup value s
  | .reportAck value => Sys2Proof.Machine.execReportAck value s
  | .faultAck value => Sys2Proof.Machine.execFaultAck value s
  | .requestAdmission region => Sys2Proof.Machine.execRequestAdmission region s
  | .modeChangeApplied region => Sys2Proof.Machine.execModeChangeApplied region s
  | .lineGrant line failed => Sys2Proof.Machine.execLineGrant line failed s
  | .slotQueueService slot => Sys2Proof.Machine.execSlotQueueService slot s
  | .arbiterGrant tag => Sys2Proof.Machine.execArbiterGrant tag s
  | .holdLimitExpiry tag => Sys2Proof.Machine.execHoldLimitExpiry tag s
  | .memoryResponseLimit tag => Sys2Proof.Machine.execMemoryResponseLimit tag s
  | .stallLimitExpiry stream => Sys2Proof.Machine.execStallLimitExpiry stream s
  | .forwardedRequestAnswer tag answer => Sys2Proof.Machine.execForwardedRequestAnswer tag answer s
  | .captureReadAnswer tag answer => Sys2Proof.Machine.execCaptureReadAnswer tag answer s
  | .recordPlacement stream => Sys2Proof.Machine.execRecordPlacement stream s
  | .recordLineAnswer tag answer => Sys2Proof.Machine.execRecordLineAnswer tag answer s
  | .descriptorFetchAnswer tag answer => Sys2Proof.Machine.execDescriptorFetchAnswer tag answer s
  | .extendTargetChoice stream => Sys2Proof.Machine.execExtendTargetChoice stream s
  | .descriptorUpdateReadAnswer tag answer => Sys2Proof.Machine.execDescriptorUpdateReadAnswer tag answer s
  | .descriptorUpdateWriteAnswer tag answer => Sys2Proof.Machine.execDescriptorUpdateWriteAnswer tag answer s
  | .anchorWriteIssue stream => Sys2Proof.Machine.execAnchorWriteIssue stream s
  | .anchorWriteLineAnswer tag answer => Sys2Proof.Machine.execAnchorWriteLineAnswer tag answer s
  | .detachFinalAnchor stream => Sys2Proof.Machine.execDetachFinalAnchor stream s
  | .anchorReadAnswer tag answer => Sys2Proof.Machine.execAnchorReadAnswer tag answer s
  | .resumeDescriptorAnswer tag answer => Sys2Proof.Machine.execResumeDescriptorAnswer tag answer s
  | .scanReadAnswer tag answer => Sys2Proof.Machine.execScanReadAnswer tag answer s
  | .engineClaimHandoff => Sys2Proof.Machine.execEngineClaimHandoff s
  | .holdingEnd => Sys2Proof.Machine.execHoldingEnd s
  | .resumedHoldingEnd => Sys2Proof.Machine.execResumedHoldingEnd s
  | .journalReadAnswer tag answer => Sys2Proof.Machine.execJournalReadAnswer tag answer s
  | .restoreWriteAnswer tag answer => Sys2Proof.Machine.execRestoreWriteAnswer tag answer s
  | .truncationDescriptorAnswer tag answer => Sys2Proof.Machine.execTruncationDescriptorAnswer tag answer s
  | .commandFetchIssue => Sys2Proof.Machine.execCommandFetchIssue s
  | .commandFetchAnswer tag answer => Sys2Proof.Machine.execCommandFetchAnswer tag answer s
  | .commandRecordTaken => Sys2Proof.Machine.execCommandRecordTaken s
  | .nop head => Sys2Proof.Machine.execNop head s
  | .identify head => Sys2Proof.Machine.execIdentify head s
  | .configure head hold notify => Sys2Proof.Machine.execConfigure head hold notify s
  | .setRegion head base exponent stream => Sys2Proof.Machine.execSetRegion head base exponent stream s
  | .setMode head mode => Sys2Proof.Machine.execSetMode head mode s
  | .queryRegion head => Sys2Proof.Machine.execQueryRegion head s
  | .attachFresh head policy stall label anchor first => Sys2Proof.Machine.execAttachFresh head policy stall label anchor first s
  | .attachResume head anchor => Sys2Proof.Machine.execAttachResume head anchor s
  | .detach head => Sys2Proof.Machine.execDetach head s
  | .extend head descriptor => Sys2Proof.Machine.execExtend head descriptor s
  | .mark head label => Sys2Proof.Machine.execMark head label s
  | .release head epoch => Sys2Proof.Machine.execRelease head epoch s
  | .rollback head epoch => Sys2Proof.Machine.execRollback head epoch s
  | .queryStream head item => Sys2Proof.Machine.execQueryStream head item s
  | .deviceClear head => Sys2Proof.Machine.execDeviceClear head s
  | .headLineWriteIssue => Sys2Proof.Machine.execHeadLineWriteIssue s
  | .headLineWriteAnswer tag answer => Sys2Proof.Machine.execHeadLineWriteAnswer tag answer s
  | .reportWriteIssue => Sys2Proof.Machine.execReportWriteIssue s
  | .reportWriteAnswer tag answer => Sys2Proof.Machine.execReportWriteAnswer tag answer s
  | .holdSetDrained => Sys2Proof.Machine.execHoldSetDrained s
  | .faultRecordFirstLineAnswer tag answer => Sys2Proof.Machine.execFaultRecordFirstLineAnswer tag answer s
  | .faultRecordClosingLineAnswer tag answer => Sys2Proof.Machine.execFaultRecordClosingLineAnswer tag answer s
  | .abandonedTagAnswer tag answer => Sys2Proof.Machine.execAbandonedTagAnswer tag answer s
  | .strayResponse tag answer => Sys2Proof.Machine.execStrayResponse tag answer s
  | .coldReset winsel => Sys2Proof.Machine.execColdReset winsel s

end Sys2Proof.Machine
end

