-- ==== Sys2Proof/Machine/Step.lean ====
section
/-! DEFINITION. One step: the command at the front of the queue, or an idle microsecond. -/
namespace Sys2Proof.Machine

/-- One step: the front of the queue is run on the queue's rest; on an empty queue the part idles for one microsecond of the
model's clock (log 7). -/
def step (s : State) : Host.Outcome State Fault Refusal :=
  match s.pending with
  | [] => .next { s with dev := { s.dev with now := s.dev.now + 1 } }
  | c :: rest => exec c { s with pending := rest }

/-- The state with the command that a word spells in front of its queue: no word spells one (log 32). -/
def State.withFetchWord (s : State) (nbits w : Nat) : State :=
  match Sys2Proof.decodeTableWord nbits w with
  | some c => { s with pending := c :: s.pending }
  | none => s

end Sys2Proof.Machine
end

