-- ==== Sys2Proof/Safety.lean ====
section
/-! DEFINITION. What is safe on this part: the tag pool within its bounds (R32), the age count within its bound (R34), the lock
state of lines in its one form (section 2.3), and NOTIFY_N as its rule says (R161); and the words the statements share. -/
namespace Sys2Proof.Machine

/-- The memory tags that are outstanding or abandoned, each with the class count it belongs to (R32). -/
def tagsHeld (d : Device) : List (MemTag × Bool) := d.arbiter.issued.map fun i => (i.tag, i.forwarded)

/-- No tag is held twice, and each class count is within its bound (R32). -/
structure TagPool (d : Device) : Prop where
  distinct : (tagsHeld d).map (·.1) |>.Nodup
  forwarded : forwardedCount d ≤ Config.forwardedBound
  ownRequests : internalCount d ≤ Config.internalBound

/-- The age count is within its bound (R34). -/
def AgeBounded (d : Device) : Prop := d.arbiter.age ≤ Config.ageBound

/-- Lines with lock state stand in ascending order, each once, and none without a holder or a waiter (section 2.3). -/
structure LockTable (d : Device) : Prop where
  ascending : (d.path.locks.map (·.line)).Pairwise (· < ·)
  used : ∀ l ∈ d.path.locks, l.idle = false

/-- NOTIFY_N is asserted when its condition holds, and only then (R161). -/
def NotifyRight (d : Device) : Prop := d.notify = notifyCondition d

/-- Memory owes an answer under this tag to this request (R29 to R32). -/
def Outstanding (d : Device) (t : MemTag) (r : PortRequest) : Prop :=
  ∃ i, issuedAt d t = some i ∧ i.abandoned = false ∧ i.request = r

/-- The tag back in the pool and the line released, as an answer leaves them (R24, R32). -/
def returned (t : MemTag) (r : PortRequest) (d : Device) : Device := releaseLine r.line (freeTag t d)

/-- The Command Unit may take a record for execution, and its chain state then waits for the record or is none (R139, R143,
R146). -/
structure Taking (d : Device) : Prop where
  state : d.check.state = .normal
  queue : d.report.queue.length < 16
  running : d.command.chain = .none ∨ d.command.chain = .following

/-- The chain state as the record's execution finds it (R146). -/
def chained (h : CmdHead) (d : Device) : Device :=
  { d with command := { d.command with chain := if h.chain = true then .waiting h.tag else .none } }

/-- The overlap test fails: the range shares a byte with the window page, or with another region that decodes (R9). -/
def Overlaps (d : Device) (r : RegionNo) (base exponent : Nat) : Prop :=
  (base < windowBase d.winsel + 4096 ∧ windowBase d.winsel < base + 2 ^ exponent)
  ∨ ∃ i, i ≠ r ∧ ((d.regions.get i).requested ≠ .off ∨ (d.regions.get i).effective ≠ .off)
    ∧ base < (d.regions.get i).base + 2 ^ (d.regions.get i).exponent ∧ (d.regions.get i).base < base + 2 ^ exponent

/-- No operation of the stream is in progress, and it is neither rolled back nor resumed (R147). -/
def Unoccupied (x : Stream) : Prop := x.operation = none ∧ x.state ≠ .rollingBack ∧ x.state ≠ .resuming

/-- The waiting anchor write once an occasion is offered: the offer joins a waiting write, or becomes it; a waiting invalidation
takes no offer (R124). -/
def joined (o : Occasion) (w : Option AnchorOffer) : Option AnchorOffer :=
  match w with
  | none => some ⟨[o], none⟩
  | some v => if v.frozen = none then some ⟨v.occasions ++ [o], none⟩ else some v

/-- A contained check loses the stream in its state (R77). -/
def CanBeLost (x : Stream) : Prop :=
  x.state = .active ∨ x.state = .exhausted ∨ x.state = .rollingBack ∨ x.state = .detaching

/-- The stream is in a state in which it places records (R62, R106, R130). -/
def Places (d : Device) (st : StreamNo) (x : Stream) : Prop :=
  x.state = .active ∨ x.state = .detaching
  ∨ (x.state = .rollingBack ∧ d.engine.owner = some st ∧ d.engine.phase = .holding)
  ∨ (x.state = .opening ∧ ∃ a, x.attach = some a ∧ a.firstAnchored = true)

/-- The head and the opcode of the record that a command presents for taking (Table 8-4). -/
def presented : Instr → Option (CmdHead × Nat)
  | .nop h => some (h, 0x00)
  | .identify h => some (h, 0x01)
  | .configure h _ _ => some (h, 0x02)
  | .setRegion h _ _ _ => some (h, 0x10)
  | .setMode h _ => some (h, 0x11)
  | .queryRegion h => some (h, 0x12)
  | .attachFresh h _ _ _ _ _ => some (h, 0x20)
  | .attachResume h _ => some (h, 0x20)
  | .detach h => some (h, 0x21)
  | .extend h _ => some (h, 0x22)
  | .mark h _ => some (h, 0x23)
  | .release h _ => some (h, 0x24)
  | .rollback h _ => some (h, 0x25)
  | .queryStream h _ => some (h, 0x26)
  | .deviceClear ⟨h, none⟩ => some (h, 0x3F)
  | _ => none

end Sys2Proof.Machine
end

