-- ==== Sys2Proof/Certificates/Slice0/Obligations.lean ====
section
/-! DEFINITION. The statements about the part, from the numbered rules. `finish t` is the end of an event whose effect left the
part as `t`: what follows at the same event, and the outputs (logs 1 to 3; `Obligations.EventEndAtRest` says what it is at
rest). -/
open Sys2Proof Sys2Proof.Machine

/-! ## The machine as a whole -/

/-- The model's own interface: a step is the front command, run on the queue's rest; with no command waiting, a
microsecond passes and nothing else happens (the model's own choice, log 7). -/
def Obligations.StepRunsFrontCommand : Prop :=
  (∀ (c : Instr) (s : State), step { s with pending := c :: s.pending } = exec c s)
  ∧ ∀ s : State, s.pending = [] → step s = .next { s with dev := { s.dev with now := s.dev.now + 1 } }

/-- Every command answers a next state, with the queue as it was (the model has no fault and no refusal). -/
def Obligations.EveryCommandCompletes : Prop :=
  ∀ (c : Instr) (s : State), ∃ t, exec c s = .next t ∧ t.pending = s.pending

/-- At the end of an event that leaves nothing more to do, only the age count (R34) and NOTIFY_N (R161) are evaluated. That
the age count becomes 0 when no C5 request is eligible, unless it is 8, is the model's reading of R34 (log 25).
Readings of the model: logs 1, 2, 25. -/
def Obligations.EventEndAtRest : Prop :=
  ∀ t : Device, quiet t = true →
    finish t = { t with
      arbiter := { t.arbiter with age := if oldestOf t .c5 = none ∧ t.arbiter.age ≠ 8 then 0 else t.arbiter.age }
      notify := (t.command.notifyEnable && t.report.ringSet && unacknowledged t.report != 0)
        || t.check.recordWritten.isSome }

/-- No command but a cold reset samples the straps, takes back a response or sets the clock back. Of those others, grants alone
send messages on the memory port and take tags, and a grant sends at most one message, under its own tag (R32, R33, R36, R174).
Readings of the model: logs 6, 7, 9. -/
def Obligations.OnlyGrantsSend : Prop :=
  ∀ (c : Instr) (s s' : State), (∀ w, c ≠ .coldReset w) → exec c s = .next s' →
    s'.dev.winsel = s.dev.winsel ∧ s.dev.responses <+: s'.dev.responses ∧ s.dev.now ≤ s'.dev.now
    ∧ ((∀ t, c ≠ .arbiterGrant t) → s'.dev.sent = s.dev.sent ∧ (tagsHeld s'.dev).Sublist (tagsHeld s.dev))
    ∧ ∀ t, c = .arbiterGrant t →
      (s'.dev.sent = s.dev.sent ∨ ∃ m, s'.dev.sent = s.dev.sent ++ [m] ∧ m.tag = t)
      ∧ ∀ u ∈ tagsHeld s'.dev, u ∈ tagsHeld s.dev ∨ u.1 = t

/-- No tag is held twice, at most 48 are held for forwarded requests and 32 for the part's own, and the age count is at
most 8, whatever step is taken (R32, R34).
Readings of the model: logs 4, 6. -/
def Obligations.ArbiterBoundsKept : Prop :=
  ∀ s s' : State, TagPool s.dev → AgeBounded s.dev → step s = .next s' → TagPool s'.dev ∧ AgeBounded s'.dev

/-- Lock state of lines stays in its one form, whatever step is taken: ascending, each line once, none idle (section 2.3). -/
def Obligations.LineLocksKept : Prop :=
  ∀ s s' : State, LockTable s.dev → step s = .next s' → LockTable s'.dev

/-- NOTIFY_N is as R161 says after every step. -/
def Obligations.NotifyFollowsRule : Prop :=
  ∀ s s' : State,
    s.dev.notify = ((s.dev.command.notifyEnable && s.dev.report.ringSet && unacknowledged s.dev.report != 0)
      || s.dev.check.recordWritten.isSome) →
    step s = .next s' →
    s'.dev.notify = ((s'.dev.command.notifyEnable && s'.dev.report.ringSet && unacknowledged s'.dev.report != 0)
      || s'.dev.check.recordWritten.isSome)

/-- COLD_RESET leaves every block at its cold values and samples the straps (R174, and R2, R32, R35, R40, R42, R46, R47,
Tables 4-1, 6-1, 8-1, 9-1, 10-2). The model's own: the clock at 0 and the empty port records (logs 7, 9), the straps of
State.reset taken as 0 (log 8), and the reset as one step that keeps the sender's queue (log 26). The three invariants hold
right after reset, and no command waits. -/
def Obligations.ColdResetValues : Prop :=
  ((∀ (w : BitVec 8) (s : State), exec (.coldReset w) s = .next { s with dev := {
       now := 0
       winsel := w
       regions := Table.fill 16 ⟨0, 12, none, .off, .off, .none, none, 0, false⟩
       path := ⟨Table.fill 64 none, [], [], 0, 0⟩
       arbiter := ⟨[], [], 0⟩
       capture := ⟨[], Table.fill 16 none, []⟩
       streams := Table.fill 4 {
         state := .detached, policy := .stall, stallLimit := some 0, anchorAddress := 0, stamp := 0, generation := 0,
         newest := .a, epoch := none, pendingMark := none, nextSequence := none, committed := none, acknowledged := [],
         positions := [], current := none, next := .absent, extensionLink := none, entering := false, history := [],
         freed := [], marks := [], saturated := false, operation := none, extension := none, resumedTarget := none,
         stallStart := none, lossCause := none, invalidation := .none, anchorWaiting := none, anchorOutstanding := none,
         attach := none }
       engine := {
         phase := .idle, owner := none, origin := .command, tag := 0, targetEpoch := none, targetSequence := none,
         walkTop := none, readPointer := none, applyPointer := none, window := [], restores := 0, applied := 0,
         skipped := 0, targetOffered := false, targetMet := false, claims := [] }
       command := {
         ringSet := false, base := 0, exponent := 2, head := 0, tail := 0, fetch := .idle, chain := .none,
         holdLimit := some 10, notifyEnable := true, headWaiting := false, headAsked := false, headOutstanding := false }
       report := {
         ringSet := false, base := 0, exponent := 3, producer := 0, acknowledged := 0, sequence := 0, queue := [],
         writing := false, summary := ⟨Table.fill 4 false, Table.fill 10 0, 0⟩ }
       check := {
         state := .normal, cause := none, second := none, holdSet := [], snapshot := Table.fill 4 (false, 0),
         results := Table.fill 4 .notAttempted, clearCount := 0, recordWritten := none, stages := Table.fill 4 .none,
         lossStream := none }
       notify := false
       responses := []
       sent := [] } })
   ∧ exec (.coldReset 0) State.reset = .next State.reset)
  ∧ State.reset.pending = [] ∧ TagPool State.reset.dev ∧ AgeBounded State.reset.dev ∧ LockTable State.reset.dev
    ∧ NotifyRight State.reset.dev

/-! ## Operations that the rules share -/

/-- Reports enter the queue or the merged summary (R158). -/
def Obligations.ReportsQueuedOrMerged : Prop :=
  (∀ (r : Report) (d : Device), asyncIndex r.kind = none →
    pushReport r d = { d with report := { d.report with queue := d.report.queue ++ [r] } })
  ∧ (∀ (r : Report) (i : Fin 10) (d : Device), asyncIndex r.kind = some i → d.report.queue.length < 16 →
    pushReport r d = { d with report := { d.report with queue := d.report.queue ++ [r] } })
  ∧ (∀ (r : Report) (i : Fin 10) (d : Device), asyncIndex r.kind = some i → 16 ≤ d.report.queue.length →
    pushReport r d = { d with report := { d.report with
      summary := {
        mask := if h : r.stream < 4 then d.report.summary.mask.set ⟨r.stream, h⟩ true else d.report.summary.mask
        counts := d.report.summary.counts.set i (min 255 (d.report.summary.counts.get i + 1))
        total := min 4294967295 (d.report.summary.total + 1) } } })
  ∧ ([ReportKind.regionDegraded, .segmentEntered, .segmentFreed, .markRetired, .streamExhausted, .streamLost,
      .filterSaturated, .captureFailed, .check, .windowMisuse].map asyncIndex = (List.finRange 10).map some)
  ∧ ([ReportKind.commandDone, .modeReached, .modeSuperseded].map asyncIndex = [none, none, none])

/-- A response upstream removes the entry and lowers the region's admitted count, but for a request never admitted (R4,
R20); a release takes a share or the hold off the line; a request's tag returns to the pool (R32); a request that asks for
its line takes it at once or joins the back of its queue, a READ also taking a share of a shared line (R24, R74); a head-line
write joins the waiting one or becomes it, and asks for nothing while one is outstanding (R143). A slot that becomes free is
empty, or goes to the front of the slot queue while no device check is handled; removed filter entries leave the filter, and the
slots that removed PENDING entries named lose their link, nothing else (R45, R47). Requests withdrawn leave line queues and
classes, and each that waited in a class releases the line it holds; of requests abandoned those already issued lose their
owner; requests discarded later lose it wherever they stand, and are still issued (R33, R78, R126, R131). A request without owner
keeps its class; a head-line write is still told from the others, for its position stays its own (R143).
Readings of the model: logs 9, 34, 37. -/
def Obligations.SharedOperations : Prop :=
  ((∀ (t : ReqTag) (a : Response) (d : Device) (q : Request), d.path.requests.get t = some q →
     respond t a d = { d with
       path := { d.path with requests := d.path.requests.set t none, waitMode := d.path.waitMode.filter (· != t) }
       responses := d.responses ++ [(t, a)]
       regions := match q.covering with
         | none => d.regions
         | some r => if q.state = .waitMode then d.regions else
             d.regions.set r { d.regions.get r with admitted := (d.regions.get r).admitted - 1 } })
   ∧ (∀ (line : Nat) (d : Device),
     releaseLine line d = d.withLock line fun l => { l with hold := match l.hold with
       | .shared (n + 2) => .shared (n + 1)
       | _ => .free })
   ∧ (∀ (t : MemTag) (d : Device), freeTag t d = { d with
       arbiter := { d.arbiter with issued := d.arbiter.issued.filter fun i => i.tag != t }
       check := { d.check with holdSet := d.check.holdSet.filter (· != t) } })
   ∧ (∀ (r : PortRequest) (d : Device), (lockOf d r.line).queue = [] → (lockOf d r.line).hold = .free →
     offer r d = { d with
       path := { d.path with
         locks := putLock ⟨r.line, if r.exclusive then .held else .shared 1, []⟩ d.path.locks }
       arbiter := { d.arbiter with waiting := d.arbiter.waiting ++ [r] } })
   ∧ (∀ (r : PortRequest) (d : Device), (lockOf d r.line).queue ≠ [] ∨ (lockOf d r.line).hold = .held →
     offer r d = { d with path := { d.path with
       locks := putLock ⟨r.line, (lockOf d r.line).hold, (lockOf d r.line).queue ++ [.own r]⟩ d.path.locks } })
   ∧ (∀ (r : PortRequest) (d : Device) (n : Nat), (lockOf d r.line).queue = [] → (lockOf d r.line).hold = .shared n →
     (r.exclusive = false → offer r d = { d with
       path := { d.path with locks := putLock ⟨r.line, .shared (n + 1), []⟩ d.path.locks }
       arbiter := { d.arbiter with waiting := d.arbiter.waiting ++ [r] } })
     ∧ (r.exclusive = true → offer r d = { d with path := { d.path with
       locks := putLock ⟨r.line, .shared n, [.own r]⟩ d.path.locks } }))
   ∧ (∀ r : PortRequest, r.exclusive = true ↔ r.write = true ∨ ∃ st, r.job = .updateRead st)
   ∧ (∀ d : Device, d.command.headWaiting = true → (d.command.headAsked = true ∨ d.command.headOutstanding = true) →
     offerHeadLine d = d)
   ∧ (∀ d : Device, (d.command.headAsked = true ∨ d.command.headOutstanding = true) →
     offerHeadLine d = { d with command := { d.command with headWaiting := true } })
   ∧ (∀ d : Device, d.command.headAsked = false → d.command.headOutstanding = false →
     offerHeadLine d = offer ⟨.headLine, windowBase d.winsel + 0x40, true, BitVec.allOnes 64, 0⟩
       { d with command := { d.command with headWaiting := true, headAsked := true } }))
  ∧ (∀ (k : SlotNo) (d : Device),
      let emptied : Device := { d with capture := { d.capture with slots := d.capture.slots.set k none } }
      (d.capture.queue = [] → freeSlot k d = emptied)
      ∧ ∀ t rest, d.capture.queue = t :: rest →
        (d.check.state = .normal →
          freeSlot k d = takeSlot t k { emptied with capture := { emptied.capture with queue := rest } })
        ∧ (d.check.state ≠ .normal → freeSlot k d = emptied))
    ∧ (∀ (p : FilterEntry → Bool) (d : Device),
      let d' := removeEntries p d
      d'.capture.filter = d.capture.filter.filter (fun e => !p e) ∧ d'.capture.queue = d.capture.queue
      ∧ { d' with capture := d.capture } = d
      ∧ ∀ k, d'.capture.slots.get k =
        if ∃ e ∈ d.capture.filter, p e = true ∧ e.state = .pending k
        then (d.capture.slots.get k).map fun c => { c with linked := false }
        else d.capture.slots.get k)
    ∧ (∀ j : Job, j.ownerless = (match j with
        | .headLine | .lateHeadLine => .lateHeadLine
        | j => .discard j.portClass) ∧ j.ownerless.portClass = j.portClass)
    ∧ ∀ (p : Job → Bool) (d : Device),
      let discarded (r : PortRequest) : PortRequest := if p r.job = true then { r with job := r.job.ownerless } else r
      let disowned : List Issued := d.arbiter.issued.map fun i => { i with request := discarded i.request }
      (abandon p d = { withdraw p d with arbiter := { (withdraw p d).arbiter with issued := disowned } })
      ∧ withdraw p d = (d.arbiter.waiting.filter fun r => p r.job).foldl
        (fun e r => match r.job with
          | .capture _ => e
          | _ => releaseLine r.line e)
        { d with
          arbiter := { d.arbiter with waiting := d.arbiter.waiting.filter fun r => !p r.job }
          path := { d.path with locks := (d.path.locks.map fun l => { l with queue := l.queue.filter fun a => match a with
            | .own r => !p r.job
            | .upstream _ _ => true }).filter fun l => !(l.hold == .free && l.queue.isEmpty) } }
      ∧ discardLater p d = { d with
        arbiter := { d.arbiter with waiting := d.arbiter.waiting.map discarded, issued := disowned }
        path := { d.path with locks := d.path.locks.map fun l => { l with queue := l.queue.map fun a => match a with
          | .own r => .own (discarded r)
          | .upstream t w => .upstream t w } } }

/-! ## Formats -/

/-- The choice between two anchor copies (R123). -/
def Obligations.NewestValidCopy : Prop :=
  (∀ x y : BitVec 32, generationNewer x y = true ↔
    1 ≤ (x.toNat + 2 ^ 32 - y.toNat) % 2 ^ 32 ∧ (x.toNat + 2 ^ 32 - y.toNat) % 2 ^ 32 ≤ 2147483647)
  ∧ (∀ a b : BitVec 8192, newestValid a b =
      if copyValid a = true ∧ copyValid b = true then
        (if generationNewer (copyGeneration b) (copyGeneration a) = true then some (.b, b) else some (.a, a))
      else if copyValid a = true then some (.a, a)
      else if copyValid b = true then some (.b, b)
      else none)

/-- A record's header reads back field by field, stream and region among them (Table 11-4), and the record passes its own check
code (R51, R63, R110, R173). A copy
that the part writes is valid, carries its generation, and its contents read back whole (R122, R125, R132, R173, Table
11-6). A report reads back field by field from the
line written for it (Table 11-3), and so do both lines of the device fault record (Table 11-7) and the head line (R143, R172),
every other byte of them zero. The check code is the CRC of R173: a register that starts at all ones takes the message's bits in,
the least significant of each byte first, and is then reflected and complemented; a record's and a copy's are taken with the
check field as zero, and a copy is valid by its magic and its code (R122, R173). -/
def Obligations.WrittenFormatsReadBack : Prop :=
  (∀ (kind stream region stamp sequence epoch line label : Nat) (image : Line),
     kind < 2 ^ 8 → stream < 2 ^ 8 → region < 2 ^ 8 → stamp < 2 ^ 32 → sequence < 2 ^ 32 → epoch < 2 ^ 32 →
     line < 2 ^ 40 → label < 2 ^ 32 →
     let h := recordHeader kind stream region stamp sequence epoch line label image
     headerKind h = kind ∧ bytesAt h 0x01 1 = stream ∧ bytesAt h 0x02 1 = region
     ∧ headerStamp h = stamp ∧ headerSequence h = sequence ∧ headerEpoch h = epoch
     ∧ headerLineAddress h = line ∧ headerLabel h = label ∧ recordChecks h image = true)
  ∧ (∀ (c : AnchorContents) (generation : BitVec 32), c.marks.length ≤ 8 → c.history.length ≤ 16 →
       copyValid (anchorImage c generation) = true ∧ copyGeneration (anchorImage c generation) = generation
       ∧ (c.target < 2 ^ 32 → c.epoch < 2 ^ 32 → c.nextSequence < 2 ^ 32 → (∀ k, c.stallLimit = some k → k ≤ 10) →
         (∀ m ∈ c.marks, m.epoch < 2 ^ 32 ∧ m.sequence < 2 ^ 32) →
         (∀ h ∈ c.history, h.descriptor < 2 ^ 40 ∧ h.base < 2 ^ 40 ∧ h.count < 2 ^ 32 ∧ h.first < 2 ^ 32) →
         copyContents (anchorImage c generation) = c))
  ∧ (∀ r : Report, r.stream < 2 ^ 8 → r.region < 2 ^ 8 → r.epoch < 2 ^ 32 → r.label < 2 ^ 32 → r.sequence < 2 ^ 32 →
      r.address < 2 ^ 64 → r.first < 2 ^ 64 → r.second < 2 ^ 64 →
      bytesAt r.encode 0x00 1 = r.kind.code ∧ bytesAt r.encode 0x01 1 = (if r.lap = true then 1 else 0)
      ∧ bytesAt r.encode 0x02 2 = r.tag.toNat ∧ bytesAt r.encode 0x04 1 = r.status.code
      ∧ bytesAt r.encode 0x05 1 = r.stream ∧ bytesAt r.encode 0x06 1 = r.region ∧ bytesAt r.encode 0x07 1 = 0
      ∧ bytesAt r.encode 0x08 4 = r.number.toNat ∧ bytesAt r.encode 0x0C 4 = r.epoch ∧ bytesAt r.encode 0x10 4 = r.label
      ∧ bytesAt r.encode 0x14 4 = r.sequence ∧ bytesAt r.encode 0x18 8 = r.address ∧ bytesAt r.encode 0x20 8 = r.first
      ∧ bytesAt r.encode 0x28 8 = r.second ∧ bytesAt r.encode 0x30 16 = 0)
  ∧ (∀ (number : Nat) (snapshot : Table (Bool × Nat) 4), number < 2 ^ 32 → (∀ s, (snapshot.get s).2 < 2 ^ 64) →
      let l := faultFirstLine number snapshot
      bytesAt l 0x00 4 = number ∧ bytesAt l 0x04 4 = 0 ∧ bytesAt l 0x0C 4 = 0 ∧ bytesAt l 0x30 16 = 0
      ∧ ∀ s : Fin 4, bytesAt l (0x08 + s.1) 1 = (if (snapshot.get s).1 = true then 1 else 0)
        ∧ bytesAt l (0x10 + 8 * s.1) 8 = (snapshot.get s).2)
  ∧ (∀ (number : Nat) (cause second : Option (DeviceCause × CheckDetail)) (results : Table CheckResult 4), number < 2 ^ 32 →
      let l := faultClosingLine number cause second results
      let codes (c : Option (DeviceCause × CheckDetail)) (o : Nat) : Prop := match c with
        | none => bytesAt l o 1 = 0 ∧ bytesAt l (o + 1) 1 = 0
        | some (c, detail) => bytesAt l o 1 = c.code ∧ bytesAt l (o + 1) 1 = detailCode detail
      bytesAt l 0x00 4 = 0x3CA55AC3 ∧ bytesAt l 0x04 4 = number ∧ codes cause 0x08 ∧ codes second 0x0A
      ∧ (∀ s : Fin 4, bytesAt l (0x0C + s.1) 1 = (results.get s).code) ∧ bytesAt l 0x10 48 = 0)
  ∧ (∀ head producer : Nat, head < 2 ^ 64 → producer < 2 ^ 64 → let l := headLine head producer
      bytesAt l 0x00 8 = head ∧ bytesAt l 0x08 8 = producer ∧ bytesAt l 0x10 48 = 0)
  ∧ (∀ (n : Nat) (m : BitVec n),
      let enter (r : BitVec 32) (bit : Bool) : BitVec 32 := (r <<< 1) ^^^ (if r.msb = bit then 0#32 else 0x1EDC6F41#32)
      let register : BitVec 32 := (List.range n).foldl (fun r i => enter r (m.getLsbD i)) (BitVec.allOnes 32)
      crc m = (~~~ register.reverse).toNat)
  ∧ (∀ header bare image : Line, (∀ i < 512, bare.getLsbD i = (header.getLsbD i && !decide (8 * 0x1C ≤ i ∧ i < 8 * 0x20))) →
      recordCheckCode header image = crc (image ++ bare)
      ∧ (recordChecks header image = true ↔ bytesAt header 0x1C 4 = crc (image ++ bare)))
  ∧ ∀ copy bare : BitVec 8192, (∀ i < 8192, bare.getLsbD i = (copy.getLsbD i && !decide (8 * 0x04 ≤ i ∧ i < 8 * 0x08))) →
      anchorCheckCode copy = crc bare
      ∧ (copyValid copy = true ↔ bytesAt copy 0x00 4 = 0x6B7A4A41 ∧ bytesAt copy 0x04 4 = crc bare)

/-! ## Requests, watched words and regions -/

/-- A request with a free tag to an uncovered line outside the window's first line takes its entry and its admission number
and asks for its line (`Obligations.LineAskedFor`); where the line's lock is free it waits in class C5 as READY (R18, R22,
R24, R26). A request with a free tag
to a covered line takes its entry in WAIT_MODE, behind those accepted before it; its admission is REQUEST_ADMISSION's, at
the same event where the region admits and no device check is handled (R4, R18, R22, R28). A line is covered by the region that
decodes, its requested or effective mode other than OFF, and whose range holds the line (R1, R3); no two such regions share a byte
(R9), and of two the lower would be taken. The window's first line is `Obligations.WatchedWordsHandedOver`'s.
Readings of the model: logs 7, 27, 28, 37. -/
def Obligations.RequestsAccepted : Prop :=
  (∀ (s : State) (t : ReqTag) (line : Nat), s.dev.path.requests.get t = none → covering s.dev line = none →
     let entered (q : Request) : Device := { s.dev with path := { s.dev.path with
       requests := s.dev.path.requests.set t (some q)
       waitMode := s.dev.path.waitMode.filter (· != t)
       admissions := s.dev.path.admissions + 1 } }
     let read : Request := ⟨false, line, 0, 0, none, none, some s.dev.path.admissions, s.dev.now, .waitOrder⟩
     exec (.requesterRead t line) s = .next { s with dev := finish (askUpstream t read (entered read)) }
     ∧ ∀ (mask : Mask) (data : Line), line ≠ windowBase s.dev.winsel →
       let write : Request := ⟨true, line, mask, data, none, none, some s.dev.path.admissions, s.dev.now, .waitOrder⟩
       exec (.requesterWrite t line mask data) s = .next { s with dev := finish (askUpstream t write (entered write)) })
  ∧ (∀ (s : State) (t : ReqTag) (line : Nat), s.dev.path.requests.get t = none → covering s.dev line = none →
     (lockOf s.dev line).queue = [] → (lockOf s.dev line).hold = .free →
     exec (.requesterRead t line) s = .next { s with dev := finish { s.dev with
       path := { s.dev.path with
         requests := s.dev.path.requests.set t
           (some ⟨false, line, 0, 0, none, none, some s.dev.path.admissions, s.dev.now, .ready⟩)
         waitMode := s.dev.path.waitMode.filter (· != t)
         admissions := s.dev.path.admissions + 1
         locks := putLock ⟨line, .shared 1, []⟩ s.dev.path.locks }
       arbiter := { s.dev.arbiter with waiting := s.dev.arbiter.waiting ++ [⟨.forward t, line, false, 0, 0⟩] } } }
     ∧ ∀ (mask : Mask) (data : Line), line ≠ windowBase s.dev.winsel →
       exec (.requesterWrite t line mask data) s = .next { s with dev := finish { s.dev with
         path := { s.dev.path with
           requests := s.dev.path.requests.set t
             (some ⟨true, line, mask, data, none, none, some s.dev.path.admissions, s.dev.now, .ready⟩)
           waitMode := s.dev.path.waitMode.filter (· != t)
           admissions := s.dev.path.admissions + 1
           locks := putLock ⟨line, .held, []⟩ s.dev.path.locks }
         arbiter := { s.dev.arbiter with waiting := s.dev.arbiter.waiting ++ [⟨.forward t, line, true, mask, data⟩] } } })
  ∧ (∀ (s : State) (t : ReqTag) (line : Nat) (r : RegionNo), s.dev.path.requests.get t = none →
      covering s.dev line = some r →
      exec (.requesterRead t line) s = .next { s with dev := finish { s.dev with path := { s.dev.path with
          requests := s.dev.path.requests.set t (some ⟨false, line, 0, 0, some r, none, none, s.dev.now, .waitMode⟩)
          waitMode := s.dev.path.waitMode ++ [t] } } }
      ∧ ∀ (mask : Mask) (data : Line),
        exec (.requesterWrite t line mask data) s = .next { s with dev := finish { s.dev with path := { s.dev.path with
          requests := s.dev.path.requests.set t (some ⟨true, line, mask, data, some r, none, none, s.dev.now, .waitMode⟩)
          waitMode := s.dev.path.waitMode ++ [t] } } })
  ∧ ∀ (d : Device) (line : Nat),
      let covers (i : RegionNo) : Prop := let e := d.regions.get i
        (e.requested ≠ .off ∨ e.effective ≠ .off) ∧ e.base ≤ line ∧ line < e.base + 2 ^ e.exponent
      (∀ r, covering d line = some r ↔ covers r ∧ ∀ i < r, ¬ covers i) ∧ (covering d line = none ↔ ∀ i, ¬ covers i)

/-- A request with a tag in use is dropped, with one CHECK report outside a device check's handling and none within (R19). -/
def Obligations.TagConflictDropped : Prop :=
  ∀ (s : State) (t : ReqTag) (q : Request) (line : Nat) (mask : Mask) (data : Line),
    s.dev.path.requests.get t = some q →
    let report : Report := { kind := .check, status := .failed, stream := 0xFF, address := line, first := 16, second := t.1 }
    let dropped := if s.dev.check.state = .normal then pushReport report s.dev else s.dev
    exec (.requesterRead t line) s = .next { s with dev := finish dropped }
    ∧ exec (.requesterWrite t line mask data) s = .next { s with dev := finish dropped }

/-- An admitted WRITE into the window's first line hands each word whose eight bytes it covers to its owner, in ascending
offset, with the write's admission number; a word covered in part gives a WINDOW_MISUSE report, and a word not covered
nothing (R37, Table 2-8). The window is the page at WINSEL times 4 GiB plus FFFF_F000h (R36). Here the write is uncovered, and it then goes on as any write whose line is free. -/
def Obligations.WatchedWordsHandedOver : Prop :=
  (∀ winsel : BitVec 8, windowBase winsel = winsel.toNat * 0x100000000 + 0xFFFFF000)
  ∧ ∀ (s : State) (t : ReqTag) (mask : Mask) (data : Line), s.dev.path.requests.get t = none →
    covering s.dev (windowBase s.dev.winsel) = none →
    let line := windowBase s.dev.winsel
    let covered (i : Nat) : Nat := ((List.range 8).filter fun b => mask.getLsbD (8 * i + b)).length
    let watched (i : Nat) (owner : BitVec 64 → Device → Device) (d : Device) : Device :=
      if covered i = 8 then owner (data.extractLsb' (64 * i) 64) d
      else if covered i = 0 then d
      else pushReport { kind := .windowMisuse, address := windowBase d.winsel + 8 * i, first := covered i } d
    let q : Request := ⟨true, line, mask, data, none, none, some s.dev.path.admissions, s.dev.now, .waitOrder⟩
    let admitted : Device := { s.dev with path := { s.dev.path with
      requests := s.dev.path.requests.set t (some q)
      waitMode := s.dev.path.waitMode.filter (· != t)
      admissions := s.dev.path.admissions + 1 } }
    exec (.requesterWrite t line mask data) s = .next { s with dev := finish (askUpstream t q
      (watched 4 judgeFaultAck (watched 3 judgeReportAck (watched 2 judgeReportSetup
        (watched 1 (fun v => judgeCommandTail v s.dev.path.admissions) (watched 0 judgeRingSetup admitted)))))) }

/-- A RING_SETUP value is taken or ignored (R140, R172). A COMMAND_TAIL value is taken, and the fence rises to its write's
admission number, or ignored (R141, R39). The window's first byte is that of R36. -/
def Obligations.CommandWordsJudged : Prop :=
  (∀ winsel : BitVec 8, windowBase winsel = winsel.toNat * 0x100000000 + 0xFFFFF000)
  ∧ (∀ (s : State) (v : BitVec 64),
     exec (.ringSetup v) s = .next { s with dev := finish (
       let base := v.toNat % 2 ^ 40
       let k := v.toNat / 2 ^ 56
       let window := windowBase s.dev.winsel
       if s.dev.command.head = s.dev.command.tail ∧ s.dev.command.fetch = .idle ∧ 2 ≤ k ∧ k ≤ 8 ∧ base % 64 = 0
           ∧ base + 2 ^ k * 64 ≤ 2 ^ 40 ∧ (window + 4096 ≤ base ∨ base + 2 ^ k * 64 ≤ window) then
         offerHeadLine { s.dev with command := { s.dev.command with
           ringSet := true, base := base, exponent := k, head := 0, tail := 0 } }
       else pushReport { kind := .windowMisuse, address := window, first := 8, second := v.toNat } s.dev) })
  ∧ ∀ (s : State) (v : BitVec 64) (admission : Nat),
      exec (.commandTail v admission) s = .next { s with dev := finish (
        if s.dev.command.ringSet = true ∧ v.toNat < 2 ^ s.dev.command.exponent then
          { s.dev with
            command := { s.dev.command with tail := v.toNat }
            path := { s.dev.path with fence := admission } }
        else pushReport { kind := .windowMisuse, address := windowBase s.dev.winsel + 8, first := 8, second := v.toNat }
          s.dev) }

/-- A REPORT_SETUP value is taken or ignored (R154, R172). A REPORT_ACK value is taken or ignored (R157). A FAULT_ACK
value is taken or ignored, in any state of the Check Unit (R170). -/
def Obligations.ReportWordsJudged : Prop :=
  (∀ (s : State) (v : BitVec 64),
     exec (.reportSetup v) s = .next { s with dev := finish (
       let base := v.toNat % 2 ^ 40
       let k := v.toNat / 2 ^ 56
       let window := windowBase s.dev.winsel
       if (s.dev.report.ringSet = false ∨ (s.dev.report.queue = [] ∧ unacknowledged s.dev.report = 0)) ∧ 3 ≤ k ∧ k ≤ 10
           ∧ base % 64 = 0 ∧ base + 2 ^ k * 64 ≤ 2 ^ 40 ∧ (window + 4096 ≤ base ∨ base + 2 ^ k * 64 ≤ window) then
         offerHeadLine { s.dev with report := { s.dev.report with
           ringSet := true, base := base, exponent := k, producer := 0, acknowledged := 0 } }
       else pushReport { kind := .windowMisuse, address := window + 0x10, first := 8, second := v.toNat } s.dev) })
  ∧ (∀ (s : State) (v : BitVec 64),
       exec (.reportAck v) s = .next { s with dev := finish (
         let n := 2 ^ (s.dev.report.exponent + 1)
         if s.dev.report.ringSet = true ∧ v.toNat < n
             ∧ (v.toNat + n - s.dev.report.acknowledged) % n ≤ (s.dev.report.producer + n - s.dev.report.acknowledged) % n then
           { s.dev with report := { s.dev.report with acknowledged := v.toNat } }
         else pushReport { kind := .windowMisuse, address := windowBase s.dev.winsel + 0x18, first := 8, second := v.toNat }
           s.dev) })
  ∧ ∀ (s : State) (v : BitVec 64),
      exec (.faultAck v) s = .next { s with dev := finish (
        if s.dev.check.recordWritten.map BitVec.toNat = some v.toNat then
          { s.dev with check := { s.dev.check with recordWritten := none } }
        else pushReport { kind := .windowMisuse, address := windowBase s.dev.winsel + 0x20, first := 8, second := v.toNat }
          s.dev) }

/-- The oldest request that waits on a region which admits takes its admission number and is counted, and asks for its line
(`Obligations.LineAskedFor`); where the region has stopped decoding it is admitted as uncovered; where the region neither
admits nor has stopped decoding, or a device check is handled, it waits on. A READ whose line is free waits in class C5 as
READY; a WRITE under SEAL is answered REFUSED and asks for no line (R4, R22, R24, R26, R28, R165).
Readings of the model: log 37. -/
def Obligations.WaitingRequestAdmitted : Prop :=
  ∀ (s : State) (r : RegionNo) (t : ReqTag) (q : Request) (e : Region),
    oldestWaiting s.dev r = some t → s.dev.path.requests.get t = some q → q.covering = some r →
    s.dev.regions.get r = e →
    let entered (q : Request) (regions : Table Region 16) : Device := { s.dev with
      regions := regions
      path := { s.dev.path with
        requests := s.dev.path.requests.set t (some q)
        waitMode := s.dev.path.waitMode.filter (· != t)
        admissions := s.dev.path.admissions + 1 } }
    (e.requested = .off → e.effective = .off → (q.write = false ∨ q.line ≠ windowBase s.dev.winsel) →
      let q' : Request := { q with covering := none, admission := some s.dev.path.admissions, stream := none,
                                   state := .waitOrder }
      exec (.requestAdmission r) s = .next { s with dev := finish (askUpstream t q' (entered q' s.dev.regions)) })
    ∧ ((e.requested ≠ .off ∨ e.effective ≠ .off) →
      (e.change ≠ .none ∨ e.degrading = true ∨ e.effective = .hold ∨ s.dev.check.state ≠ .normal) →
      exec (.requestAdmission r) s = .next { s with dev := finish s.dev })
    ∧ ((e.requested ≠ .off ∨ e.effective ≠ .off) → e.change = .none → e.degrading = false → e.effective ≠ .hold →
      s.dev.check.state = .normal →
    ((q.write = false ∨ (q.line ≠ windowBase s.dev.winsel ∧ e.effective ≠ .seal)) →
      let q' : Request := { q with
        admission := some s.dev.path.admissions
        stream := if q.write = true ∧ e.effective = .journal then e.stream else none
        state := .waitOrder }
      exec (.requestAdmission r) s = .next { s with dev := finish (askUpstream t q'
        (entered q' (s.dev.regions.set r { e with admitted := e.admitted + 1 }))) })
    ∧ (q.write = false → (lockOf s.dev q.line).queue = [] → (lockOf s.dev q.line).hold = .free →
      exec (.requestAdmission r) s = .next { s with dev := finish { s.dev with
        regions := s.dev.regions.set r { e with admitted := e.admitted + 1 }
        path := { s.dev.path with
          requests := s.dev.path.requests.set t
            (some { q with admission := some s.dev.path.admissions, stream := none, state := .ready })
          waitMode := s.dev.path.waitMode.filter (· != t)
          admissions := s.dev.path.admissions + 1
          locks := putLock ⟨q.line, .shared 1, []⟩ s.dev.path.locks }
        arbiter := { s.dev.arbiter with
          waiting := s.dev.arbiter.waiting ++ [⟨.forward t, q.line, false, q.mask, q.data⟩] } } })
    ∧ (q.write = true → e.effective = .seal → q.line ≠ windowBase s.dev.winsel →
      exec (.requestAdmission r) s = .next { s with dev := finish { s.dev with
        path := { s.dev.path with
          requests := s.dev.path.requests.set t none
          waitMode := s.dev.path.waitMode.filter (· != t)
          admissions := s.dev.path.admissions + 1 }
        responses := s.dev.responses ++ [(t, .refused)] } }))

/-- A request that asks for its line: behind others, or where the lock does not allow it, it joins the queue in WAIT_ORDER;
else it takes the lock, and waits in class C5 as READY, or goes to the Capture Unit as a journaled write (R24, R26). The
Capture Unit looks the line up: CAPTURED, the write becomes READY; PENDING, it is tied to the slot; absent, it takes the
lowest-numbered free slot, as SLOT_QUEUE_SERVICE gives one, or waits in the slot queue (R47, R48, R54). While a device check
is handled, SLOT_QUEUE_SERVICE gives none (R28, R165).
Readings of the model: log 37. -/
def Obligations.LineAskedFor : Prop :=
  (∀ (d : Device) (t : ReqTag) (q : Request), d.path.requests.get t = some q →
    let l := lockOf d q.line
    let behind : Prop := l.queue ≠ [] ∨ l.hold = .held ∨ (q.write = true ∧ l.hold ≠ .free)
    let taken : Device := { d with path := { d.path with
      locks := putLock ⟨q.line, l.hold.take q.write, []⟩ d.path.locks } }
    (behind → askUpstream t q d = { d with path := { d.path with
      requests := d.path.requests.set t (some { q with state := .waitOrder })
      locks := putLock ⟨q.line, l.hold, l.queue ++ [.upstream t q.write]⟩ d.path.locks } })
    ∧ (¬ behind → q.stream = none → askUpstream t q d = { taken with
      path := { taken.path with requests := d.path.requests.set t (some { q with state := .ready }) }
      arbiter := { d.arbiter with
        waiting := d.arbiter.waiting ++ [⟨.forward t, q.line, q.write, q.mask, q.data⟩] } })
    ∧ (¬ behind → q.stream ≠ none → askUpstream t q d = handToCapture t q.line taken))
  ∧ ∀ (d : Device) (t : ReqTag) (q : Request), d.path.requests.get t = some q →
    let found := d.capture.filter.find? fun e => e.line == q.line
    let inState (st : RequestState) : Table (Option Request) 64 := d.path.requests.set t (some { q with state := st })
    (∀ e, found = some e → e.state = .captured → handToCapture t q.line d = { d with
      path := { d.path with requests := inState .ready }
      arbiter := { d.arbiter with
        waiting := d.arbiter.waiting ++ [⟨.forward t, q.line, q.write, q.mask, q.data⟩] } })
    ∧ (∀ e k c, found = some e → e.state = .pending k → d.capture.slots.get k = some c →
      handToCapture t q.line d = { d with
        path := { d.path with requests := inState .capturing }
        capture := { d.capture with slots := d.capture.slots.set k (some { c with owner := some t }) } })
    ∧ (found = none → (∀ k, d.capture.slots.get k ≠ none) → handToCapture t q.line d = { d with
      path := { d.path with requests := inState .waitSlot }
      capture := { d.capture with queue := d.capture.queue ++ [t] } })
    ∧ (∀ k, found = none → d.capture.slots.get k = none → (∀ j < k, d.capture.slots.get j ≠ none) →
      handToCapture t q.line d = takeSlot t k d)
    ∧ ∀ k rest (s : State), s.dev = d → d.capture.slots.get k = none → d.capture.queue = t :: rest →
      (d.check.state = .normal → exec (.slotQueueService k) s = .next { s with dev := finish (
        takeSlot t k { d with capture := { d.capture with queue := rest } }) })
      ∧ (d.check.state ≠ .normal → exec (.slotQueueService k) s = .next { s with dev := finish d })

/-- A pending change is applied when its four conditions hold: a tagged one with MODE_REACHED, an internal one without a
report; a region that leaves JOURNAL loses its filter entries (R6, R7, R8, R17). A region whose requested mode is JOURNAL,
with another mode in force, no change pending and no degradation, goes back to JOURNAL when its stream is ACTIVE or
EXHAUSTED: at once with nothing admitted, by an internal change otherwise (R16). An event whose inner steps come to rest within
the model's bound (log 3) ends with no change left whose conditions hold, and no region left that goes back to JOURNAL.
Readings of the model: logs 1, 3. -/
def Obligations.PendingChangeApplied : Prop :=
  (∀ (s : State) (r : RegionNo) (e : Region), s.dev.regions.get r = e → e.change ≠ .none → e.admitted = 0 →
    e.degrading = false →
    (e.requested = .journal →
      ∃ st, e.stream = some st ∧ ((s.dev.streams.get st).state = .active ∨ (s.dev.streams.get st).state = .exhausted)) →
    let changed : Device :=
      { s.dev with regions := s.dev.regions.set r { e with effective := e.requested, change := .none } }
    let reported : Device := match e.change with
      | .tagged tag => pushReport { kind := .modeReached, tag := tag, region := r.1, stream := streamByte e.stream,
                                    address := e.base, first := e.requested.code, second := e.effective.code } changed
      | _ => changed
    exec (.modeChangeApplied r) s = .next { s with dev := finish (
      if e.effective = .journal ∧ e.requested ≠ .journal then removeEntries (fun x => x.region == r) reported
      else reported) })
  ∧ (∀ (d : Device) (r : RegionNo) (st : StreamNo), let e := d.regions.get r
      e.stream = some st → ((d.streams.get st).state = .active ∨ (d.streams.get st).state = .exhausted) →
      e.requested = .journal → e.degrading = false →
      (e.effective ≠ .journal → e.change = .none →
        (e.admitted = 0 → tryReturn r d = some { d with regions := d.regions.set r { e with effective := .journal } })
        ∧ (e.admitted ≠ 0 → tryReturn r d = some { d with regions := d.regions.set r { e with change := .internal } }))
      ∧ (quiet d = true → (e.effective = .journal ∨ e.change ≠ .none) ∧ (e.change = .none ∨ e.admitted ≠ 0)))
  ∧ ∀ (d : Device) (r : RegionNo), quiet (settle Config.innerSteps d) = true →
      let t := finish d
      let e := t.regions.get r
      let serving : Prop := ∃ st, e.stream = some st
        ∧ ((t.streams.get st).state = .active ∨ (t.streams.get st).state = .exhausted)
      (e.change ≠ .none → e.admitted ≠ 0 ∨ e.degrading = true ∨ (e.requested = .journal ∧ ¬ serving))
      ∧ (e.requested = .journal → e.effective ≠ .journal → e.change ≠ .none ∨ e.degrading = true ∨ ¬ serving)

/-- The front of a line's queue takes the line when the lock allows it: a request of the part's own enters its class, an
upstream request that is not journaled becomes READY, a journaled write goes
to the Capture Unit (`Obligations.LineAskedFor`; R24, R26, R48). A covered request stays in the queue while a device check is
handled (R28, R165), and nothing is granted where the queue is empty or the lock does not allow its front. A failed check
code met by the step is handed to the Check Unit after the step's own effect (R162).
Readings of the model: logs 10, 37. -/
def Obligations.FrontOfLineGranted : Prop :=
  ∀ (s : State) (line : Nat) (rest : List Asker) (failed : Option CheckDetail),
    let checked (d : Device) : Device := match failed with
      | none => d
      | some f => deviceCheck .internalState f d
    let l := lockOf s.dev line
    let open_ (exclusive : Bool) : Prop := l.hold = .free ∨ (exclusive = false ∧ l.hold ≠ .held)
    let taken (exclusive : Bool) : Device := { s.dev with path := { s.dev.path with
      locks := putLock ⟨line, l.hold.take exclusive, rest⟩ s.dev.path.locks } }
    let grants (d : Device) : Prop := exec (.lineGrant line failed) s = .next { s with dev := finish (checked d) }
    (l.queue = [] → grants s.dev)
    ∧ (∀ x : PortRequest, l.queue = .own x :: rest →
      (open_ x.exclusive → grants { taken x.exclusive with
        arbiter := { s.dev.arbiter with waiting := s.dev.arbiter.waiting ++ [x] } })
      ∧ (¬ open_ x.exclusive → grants s.dev))
    ∧ ∀ (t : ReqTag) (w : Bool) (q : Request), l.queue = .upstream t w :: rest → s.dev.path.requests.get t = some q →
      (¬ open_ w → grants s.dev)
      ∧ (s.dev.check.state ≠ .normal → q.covering ≠ none → grants s.dev)
      ∧ (open_ w → (s.dev.check.state = .normal ∨ q.covering = none) →
        (q.stream = none → grants { taken w with
          path := { (taken w).path with requests := s.dev.path.requests.set t (some { q with state := .ready }) }
          arbiter := { s.dev.arbiter with
            waiting := s.dev.arbiter.waiting ++ [⟨.forward t, q.line, q.write, q.mask, q.data⟩] } })
        ∧ (∀ st, q.stream = some st → grants (handToCapture t q.line (taken w))))

/-- A grant: a free tag goes to the chosen request, which is issued; a forwarded request becomes FORWARDED; the age count
is kept (R29, R32, R34). The Arbiter's choice: at age 8 the oldest eligible C5 request; otherwise the oldest eligible of
the highest class that has one (R34). A request is eligible when a tag is free with its class count below its bound (R32),
and, while a device check is handled, only in C1 or as a forwarded request of an uncovered line (R35).
Readings of the model: logs 6, 9. -/
def Obligations.TagGranted : Prop :=
  (∀ (s : State) (tag : MemTag) (x : PortRequest), arbiterChoice s.dev = some x →
     (∀ i ∈ s.dev.arbiter.issued, i.tag ≠ tag) →
     (∀ t q, x.job = .forward t → s.dev.path.requests.get t = some q →
       exec (.arbiterGrant tag) s = .next { s with dev := finish { s.dev with
         path := { s.dev.path with requests := s.dev.path.requests.set t (some { q with state := .forwarded }) }
         arbiter := {
           waiting := s.dev.arbiter.waiting.erase x
           issued := s.dev.arbiter.issued ++ [⟨tag, x, true, false, s.dev.now⟩]
           age := 0 }
         sent := s.dev.sent ++ [⟨tag, x.write, x.line, x.mask, x.data⟩] } })
     ∧ ((∀ t, x.job ≠ .forward t) → x.job.portClass ≠ .c5 → x.job ≠ .headLine → x.job ≠ .faultClosing →
       exec (.arbiterGrant tag) s = .next { s with dev := finish { s.dev with
         arbiter := {
           waiting := s.dev.arbiter.waiting.erase x
           issued := s.dev.arbiter.issued ++ [⟨tag, x, false, false, s.dev.now⟩]
           age := if (oldestOf s.dev .c5).isSome = true then min 8 (s.dev.arbiter.age + 1) else s.dev.arbiter.age }
         sent := s.dev.sent ++ [⟨tag, x.write, x.line, x.mask, x.data⟩] } }))
  ∧ ∀ d : Device,
      (d.arbiter.age = 8 → ∀ x, oldestOf d .c5 = some x → arbiterChoice d = some x)
      ∧ ((d.arbiter.age ≠ 8 ∨ oldestOf d .c5 = none) →
        arbiterChoice d = ((((oldestOf d .c1).or (oldestOf d .c2)).or (oldestOf d .c3)).or (oldestOf d .c4)).or
          (oldestOf d .c5))
      ∧ (∀ c x, oldestOf d c = some x → ∃ before after, d.arbiter.waiting = before ++ x :: after ∧ x.job.portClass = c
        ∧ eligible d x = true ∧ ∀ y ∈ before, y.job.portClass = c → eligible d y = false)
      ∧ (∀ x : PortRequest, eligible d x = true ↔
        d.arbiter.issued.length < 64
        ∧ (x.job.portClass = .c5 → (d.arbiter.issued.filter (·.forwarded)).length < 48)
        ∧ (x.job.portClass ≠ .c5 → (d.arbiter.issued.filter fun i => !i.forwarded).length < 32)
        ∧ (d.check.state = .normal ∨ x.job.portClass = .c1
          ∨ ∃ t q, x.job = .forward t ∧ d.path.requests.get t = some q ∧ q.covering = none))

/-! ## Capture -/

/-- A free slot goes to the front of the slot queue: the write takes CAPTURING, its line's entry is PENDING, and the
capture read waits in C3 (R47). With a full filter there is no entry, the
stream's flag is set, and FILTER_SATURATED is produced if it was clear (R44). The answer to a capture read, by the slot's
phase (R49, R57). Cancelling a slot answers its owner RETRY and removes the entry that names it. In WAITING_POSITION, or with its
read not yet on the memory port, the line is released and the slot becomes free; with the read outstanding the slot keeps the
line, in CANCELLED (R25, R55). A slot in another phase is not cancelled. -/
def Obligations.CaptureProceeds : Prop :=
  (∀ (s : State) (k : SlotNo) (t : ReqTag) (rest : List ReqTag) (q : Request) (st : StreamNo) (r : RegionNo),
     s.dev.capture.slots.get k = none → s.dev.capture.queue = t :: rest → s.dev.path.requests.get t = some q →
     q.stream = some st → q.covering = some r → s.dev.check.state = .normal →
     let x := s.dev.streams.get st
     let slot (linked : Bool) : Slot :=
       ⟨some t, q.line, r, st, x.epoch.getD 0, linked, none, none, none, 0, 0, false, .reading⟩
     let asked (d : Device) : Device := { d with
       path := { d.path with requests := d.path.requests.set t (some { q with state := .capturing }) }
       arbiter := { d.arbiter with waiting := d.arbiter.waiting ++ [⟨.capture k, q.line, false, 0, 0⟩] } }
     let unlinked : Device := { s.dev with
       capture := ⟨s.dev.capture.filter, s.dev.capture.slots.set k (some (slot false)), rest⟩
       streams := s.dev.streams.set st { x with saturated := true } }
     (s.dev.capture.filter.length < 2048 →
       exec (.slotQueueService k) s = .next { s with dev := finish (asked { s.dev with capture :=
         ⟨insertEntry ⟨q.line, r, .pending k⟩ s.dev.capture.filter, s.dev.capture.slots.set k (some (slot true)), rest⟩ }) })
     ∧ (2048 ≤ s.dev.capture.filter.length → x.saturated = true →
       exec (.slotQueueService k) s = .next { s with dev := finish (asked unlinked) })
     ∧ (2048 ≤ s.dev.capture.filter.length → x.saturated = false →
       exec (.slotQueueService k) s = .next { s with dev := finish (asked (pushReport
         { kind := .filterSaturated, stream := st.1, region := r.1, epoch := x.epoch.getD 0, address := q.line,
           first := (s.dev.capture.filter.filter fun e => (s.dev.regions.get e.region).stream == some st).length,
           second := 2048 } unlinked)) }))
  ∧ (∀ (s : State) (t : MemTag) (r : PortRequest) (k : SlotNo) (c : Slot), Outstanding s.dev t r → r.job = .capture k →
      r.write = false → s.dev.capture.slots.get k = some c →
      let d := freeTag t s.dev
      (c.phase = .reading →
        (∀ image, exec (.captureReadAnswer t (.data image)) s = .next { s with dev := finish { d with
          capture := { d.capture with
            slots := d.capture.slots.set k (some { c with image := some image, phase := .waitingPosition }) }
          streams := d.streams.set c.stream { d.streams.get c.stream with
            positions := (d.streams.get c.stream).positions ++ [(k, c.epoch)] } } })
        ∧ (∀ g, c.owner = some g →
          exec (.captureReadAnswer t .error) s = .next { s with dev := finish (
            let e := freeSlot k (removeEntries (fun e => e.state == .pending k) (releaseLine c.line (respond g .error d)))
            if e.check.state = .normal then
              pushReport { kind := .captureFailed, status := .failed, stream := c.stream.1, region := c.region.1,
                           epoch := c.epoch, address := c.line, first := g.1 } e
            else e) }))
      ∧ (c.phase = .cancelled →
        (∀ image, exec (.captureReadAnswer t (.data image)) s =
          .next { s with dev := finish (freeSlot k (releaseLine r.line d)) })
        ∧ exec (.captureReadAnswer t .error) s = .next { s with dev := finish (freeSlot k (releaseLine r.line d)) }))
  ∧ ∀ (d : Device) (k : SlotNo),
      (d.capture.slots.get k = none → cancelSlot k d = d)
      ∧ ∀ c, d.capture.slots.get k = some c →
        let entryGone (e : Device) : Device := removeEntries (fun f => f.state == .pending k) e
        let told : Device := match c.owner with
          | some t => respond t .retry d
          | none => d
        let released : Device := match c.owner with
          | some t => releaseLine c.line (respond t .retry d)
          | none => d
        (c.phase = .waitingPosition → cancelSlot k d = freeSlot k ((entryGone released).withStream c.stream fun x =>
          { x with positions := x.positions.filter fun p => p.1 != k }))
        ∧ (c.phase = .reading → (∀ i ∈ d.arbiter.issued, i.request.job ≠ .capture k) →
          cancelSlot k d = freeSlot k (withdraw (fun j => j == .capture k) (entryGone released)))
        ∧ (c.phase = .reading → (∃ i ∈ d.arbiter.issued, i.request.job = .capture k) →
          cancelSlot k d = (entryGone told).withSlot k
            (some { c with owner := none, linked := false, phase := .cancelled }))
        ∧ (c.phase ≠ .waitingPosition → c.phase ≠ .reading → cancelSlot k d = d)

/-! ## Limits -/

/-- The hold limit reached: a request that is not forwarded expires, by its state; no expiry for a forwarded request or with the
limit unlimited (R27, R28, R55). The clock is moved on to the limit (log 7). A write in CAPTURING whose slot has no sequence has
it cancelled (`Obligations.CaptureProceeds`); of any other the slot becomes an orphan (R53, R56). -/
def Obligations.HoldLimitExpires : Prop :=
  (∀ (s : State) (t : ReqTag) (q : Request), s.dev.path.requests.get t = some q →
     ((q.state = .ready ∨ q.state = .forwarded ∨ s.dev.command.holdLimit = none) →
       exec (.holdLimitExpiry t) s = .next { s with dev := finish s.dev })
     ∧ ∀ limit, s.dev.command.holdLimit = some limit → q.state ≠ .ready → q.state ≠ .forwarded →
       exec (.holdLimitExpiry t) s = .next { s with dev := finish (expireRequest t
         { s.dev with now := max s.dev.now (q.holdStart + 2 ^ limit) }) })
  ∧ ∀ (d : Device) (t : ReqTag) (q : Request), d.path.requests.get t = some q →
      (q.state = .waitMode → expireRequest t d = respond t .retry d)
      ∧ (q.state = .waitOrder → expireRequest t d = respond t .retry (leaveLine q.line t d))
      ∧ (q.state = .waitSlot → expireRequest t d = respond t .retry (releaseLine q.line
          { d with capture := { d.capture with queue := d.capture.queue.filter (· != t) } }))
      ∧ (q.state = .capturing →
        (slotOwnedBy d t = none → expireRequest t d = respond t .retry (releaseLine q.line d))
        ∧ ∀ k c, slotOwnedBy d t = some (k, c) →
          ((c.phase = .reading ∨ c.phase = .waitingPosition) → expireRequest t d = cancelSlot k d)
          ∧ (c.phase ≠ .reading → c.phase ≠ .waitingPosition →
            expireRequest t d = respond t .retry (releaseLine q.line
              { d with capture := { d.capture with slots := d.capture.slots.set k (some { c with owner := none }) } })))

/-- A tag reaches the memory response limit: it is abandoned and stays out of the pool, a forwarded request is answered
ERROR, and a device check MEMORY_TIMEOUT follows, or for the closing line in DEVICE_CLOSE the device clear; an abandoned
tag reaches no limit again (R30, R168). The clock is moved on to the limit (log 7). A closing line queued behind a holder so
abandoned stays queued (log 59).
Readings of the model: logs 7, 59. -/
def Obligations.ResponseLimitReached : Prop :=
  ∀ (s : State) (t : MemTag) (i : Issued), issuedAt s.dev t = some i →
    (i.abandoned = true → exec (.memoryResponseLimit ⟨t, none⟩) s = .next { s with dev := finish s.dev })
    ∧ (i.abandoned = false →
      let d : Device := { s.dev with
        now := max s.dev.now (i.grantedAt + 4000)
        arbiter := { s.dev.arbiter with issued := s.dev.arbiter.issued.map fun j =>
          if j.tag = t then { j with
            abandoned := true
            request := if j.forwarded = true then { j.request with job := j.request.job.ownerless } else j.request }
          else j }
        check := { s.dev.check with holdSet := s.dev.check.holdSet.filter (· != t) } }
      (∀ g, i.request.job = .forward g →
        exec (.memoryResponseLimit ⟨t, none⟩) s =
          .next { s with dev := finish (deviceCheck .memoryTimeout .none (respond g .error d)) })
      ∧ ((∀ g, i.request.job ≠ .forward g) → (s.dev.check.state ≠ .close ∨ i.request.job ≠ .faultClosing) →
        exec (.memoryResponseLimit ⟨t, none⟩) s = .next { s with dev := finish (deviceCheck .memoryTimeout .none d) })
      ∧ (s.dev.check.state = .close → i.request.job = .faultClosing →
        exec (.memoryResponseLimit ⟨t, none⟩) s = .next { s with dev := finish (deviceClear d) }))

/-- The stall timer of an EXHAUSTED stream reaches its limit: the stream is lost as BROKEN with cause STALL_LIMIT; with
the limit unlimited, or in another state, it does not expire (R72). The clock is moved on to the limit (log 7). What a
stream loss does (R78): of the lost stream's context, the cause, no stall timer, no marks, no operation or extension, no
chain ahead, and its invalidation waiting with the contents of the loss, with sequences, acknowledged set, current segment
and history as they stood (R79, R125); STREAM_LOST, then the COMMAND_DONE FAILED of the operation and of the extension, in
this order (log 74), each with the cause (R85, R116); its regions in JOURNAL degraded, with requested mode and pending change as they were (R14), each
region's admitted count lower by one for each of its requests answered, one in WAIT_MODE not counted; its held writes
answered RETRY in ascending requester tag (R56), those in WAIT_ORDER among them (log 16). The failed completions carry their
addresses as log 14 says. No filter entry of the stream is left, and no other stream's CAPTURED entry goes (R45). Of its slots,
where no write of another stream waits for one: those without a sequence and those in DONE are free, but for one whose capture read is
outstanding, which is CANCELLED; one in WRITING has no owner and waits for its lines (R55, R56).
The descriptor fetch and update that wait are withdrawn, those issued lose their owner, the lines of a MARK record lose it and are
still written, and an outstanding anchor write loses its owners, the Check Unit excepted (R78, log 34). An engine that serves the
stream takes its cold values with its waiting claims, and its journal reads, restore writes and descriptor re-read are withdrawn or
lose their owner (R116).
Readings of the model: logs 7, 14, 16, 20, 34, 42, 68, 69, 74. -/
def Obligations.StallLimitExpires : Prop :=
  (∀ (s : State) (st : StreamNo),
     (∀ start k, (s.dev.streams.get st).state = .exhausted → (s.dev.streams.get st).stallStart = some start →
       (s.dev.streams.get st).stallLimit = some k →
       exec (.stallLimitExpiry st) s = .next { s with dev := finish (
         loseStream st .stallLimit true 0 0 { s.dev with now := max s.dev.now (start + 2 ^ k * 1000) }) })
     ∧ (((s.dev.streams.get st).state ≠ .exhausted ∨ (s.dev.streams.get st).stallLimit = none) →
       exec (.stallLimitExpiry st) s = .next { s with dev := finish s.dev }))
  ∧ ∀ (st : StreamNo) (cause : Cause) (broken : Bool) (sequence address : Nat) (d : Device),
      let x := d.streams.get st
      let t := loseStream st cause broken sequence address d
      let y := t.streams.get st
      (y.state = (if broken = true then .broken else .faulted) ∧ y.lossCause = some cause ∧ y.stallStart = none
      ∧ y.marks = [] ∧ y.pendingMark = none ∧ y.operation = none ∧ y.extension = none ∧ y.next = .absent
      ∧ y.extensionLink = none ∧ y.entering = false ∧ y.freed = [] ∧ y.saturated = false ∧ y.invalidation = .waiting
      ∧ y.anchorWaiting = some ⟨[.loss (x.epoch.getD 0)], some (x.anchorAddress, {
          stamp := x.stamp, cleanDetach := false, invalidated := true, rollbackPending := false, target := 0,
          epoch := x.epoch.getD 0, nextSequence := x.committed.getD 0 + 1, marks := [],
          history := x.history.filter fun h => decide (h.first ≤ x.committed.getD 0 + 1),
          policy := x.policy, stallLimit := x.stallLimit })⟩
      ∧ y.acknowledged = x.acknowledged ∧ y.nextSequence = x.nextSequence ∧ y.committed = x.committed
      ∧ y.current = x.current ∧ y.history = x.history ∧ y.epoch = x.epoch ∧ y.anchorAddress = x.anchorAddress
      ∧ y.stamp = x.stamp ∧ y.generation = x.generation ∧ y.newest = x.newest)
      ∧ (let lost : Report := {
           kind := .streamLost, status := .failed, stream := st.1, epoch := x.epoch.getD 0
           sequence := x.committed.getD 0, address := x.anchorAddress, first := x.marks.length, second := cause.code }
         let ended (o : Operation) : Report :=
           let failed : Report :=
             { kind := .commandDone, tag := o.tag, status := .failed, stream := st.1, second := cause.code }
           match o.kind with
           | .mark => { failed with epoch := o.epoch, label := o.label.toNat, sequence := o.sequence, first := o.retired }
           | .release => { failed with epoch := o.epoch, first := o.retired }
           | .detach => failed
           | .rollback => { failed with
               epoch := o.epoch, label := o.label.toNat, first := d.engine.applied, address := address
               sequence := if sequence = 0 then d.engine.applyPointer.getD 0 else sequence }
           | .attach => { failed with
               epoch := d.engine.targetEpoch.getD 0, first := d.engine.applied, sequence := sequence, address := address }
         let extended (e : Extension) : Report := { kind := .commandDone, tag := e.tag, status := .failed, stream := st.1,
                                                    address := e.descriptor, second := cause.code }
         d.report.queue ++ (if d.report.queue.length < 16 then [lost] else []) ++ (x.operation.map ended).toList
           ++ (x.extension.map extended).toList <+: t.report.queue)
      ∧ (∀ r, let e := d.regions.get r
        let degraded : Prop := e.stream = some st ∧ e.effective = .journal
        let answered (counts : RequestState → Bool) : Nat := ((t.responses.drop d.responses.length).filter fun p =>
          match d.path.requests.get p.1 with
          | some q => q.covering == some r && counts q.state
          | none => false).length
        ∃ n, e.admitted - answered (fun _ => true) ≤ n ∧ n ≤ e.admitted - answered (· != .waitMode)
          ∧ (degraded → t.regions.get r = { e with
            effective := .hold, degrading := true, admitted := n
            resume := if d.engine.owner = some st then none else e.resume })
          ∧ (¬ degraded → t.regions.get r = { e with
            admitted := n
            resume := if d.engine.owner = some st ∧ e.stream = some st then none else e.resume }))
      ∧ ((∀ f ∈ t.capture.filter, (d.regions.get f.region).stream ≠ some st)
        ∧ ∀ f ∈ d.capture.filter, (d.regions.get f.region).stream ≠ some st → f.state = .captured → f ∈ t.capture.filter)
      ∧ ((d.check.state ≠ .normal ∨ ∀ g ∈ d.capture.queue, ∀ q, d.path.requests.get g = some q → q.stream = some st) →
        ∀ k c, d.capture.slots.get k = some c → c.stream = st → c.lost = false →
          let reading : Prop := ∃ i ∈ d.arbiter.issued, i.request.job = .capture k
          ((c.phase = .done ∨ c.phase = .waitingPosition ∨ (c.phase = .reading ∧ ¬ reading)) →
            t.capture.slots.get k = none)
          ∧ (c.phase = .reading → reading → ∃ y, t.capture.slots.get k = some y ∧ y.phase = .cancelled ∧ y.owner = none
            ∧ y.linked = false ∧ y.stream = st ∧ y.line = c.line)
          ∧ (c.phase = .writing → c.linesAnswered < 2 → ∃ y, t.capture.slots.get k = some y ∧ y.phase = .writing
            ∧ y.owner = none ∧ y.lost = true ∧ y.linesAnswered = c.linesAnswered ∧ y.linesWritten = c.linesWritten
            ∧ y.sequence = c.sequence ∧ y.stream = st ∧ y.line = c.line))
      ∧ (let serves : Bool := d.engine.owner == some st
        let capture (j : Job) : Bool := match j with
          | .capture _ => true
          | _ => false
        let mark (j : Job) : Bool := match j with
          | .markRecord s _ => s == st
          | _ => false
        let dropped (j : Job) : Bool := match j with
          | .descriptor s | .updateRead s | .updateWrite s => s == st
          | .journalRead _ _ | .restore _ | .truncationDescriptor _ => serves
          | _ => false
        let unmarked (r : PortRequest) : PortRequest := if mark r.job = true then { r with job := .discard .c2 } else r
        t.engine = (if serves = true then { Engine.cold with claims := d.engine.claims } else d.engine)
        ∧ t.arbiter.issued = d.arbiter.issued.map (fun i =>
          let r := i.request
          { i with request := if dropped r.job = true then { r with job := .discard r.job.portClass } else unmarked r })
        ∧ t.arbiter.waiting.filter (fun r => !capture r.job) =
          (d.arbiter.waiting.filter fun r => !capture r.job && !dropped r.job).map unmarked
        ∧ (∀ l ∈ t.path.locks, ∀ r, .own r ∈ l.queue → dropped r.job = false ∧ mark r.job = false)
        ∧ (∀ l ∈ d.path.locks, ∀ r, .own r ∈ l.queue → dropped r.job = false → capture r.job = false →
          ∃ m ∈ t.path.locks, m.line = l.line ∧ .own (unmarked r) ∈ m.queue)
        ∧ y.anchorOutstanding = x.anchorOutstanding.map fun w => { w with occasions := w.occasions.filter (· == .check) })
      ∧ ∀ held : List ReqTag, held.Pairwise (· < ·) →
        (∀ g ∈ held, ∃ q, d.path.requests.get g = some q ∧ q.stream = some st
          ∧ (q.state = .waitOrder ∨ q.state = .waitSlot ∨ q.state = .capturing)
          ∧ ∀ k c, slotOwnedBy d g = some (k, c) → c.phase ≠ .cancelled) →
        (∀ g ∈ held, t.path.requests.get g = none)
        ∧ (held.map fun g => (g, Response.retry)).Sublist (t.responses.drop d.responses.length)

/-! ## Answers to forwarded requests, and messages that answer nothing -/

/-- Memory's answer to a forwarded request goes upstream, its tag returns to the pool and its line is released (R29). A
message under a tag neither outstanding nor abandoned, or of the wrong kind for its request, is discarded and is a device
check STRAY_RESPONSE; the request stays outstanding (R31). Any message under an abandoned tag is discarded, its tag
returns to the pool, and its line is released, but for a capture read's line that its write still holds (R25, R30); an abandoned
head-line write then leaves its position too (log 62; `Obligations.HeadLineWritten`). The answer to a request whose owner has gone is discarded: its tag returns, its line is released, and nothing else follows (R40, R78, R117,
R126, R131, R143, R153); the row it comes by makes no difference (log 5).
Readings of the model: logs 5, 15, 62. -/
def Obligations.ForwardedRequestAnswered : Prop :=
  (∀ (s : State) (t : MemTag) (r : PortRequest) (g : ReqTag), Outstanding s.dev t r → r.job = .forward g →
     (∀ l, r.write = false → exec (.forwardedRequestAnswer t (.data l)) s =
       .next { s with dev := finish (respond g (.data l) (returned t r s.dev)) })
     ∧ (r.write = true → exec (.forwardedRequestAnswer t .done) s =
       .next { s with dev := finish (respond g .done (returned t r s.dev)) })
     ∧ exec (.forwardedRequestAnswer t .error) s = .next { s with dev := finish (respond g .error (returned t r s.dev)) })
  ∧ ∀ (s : State) (t : MemTag) (a : MemAnswer),
      (tagFree s.dev t = true →
        exec (.strayResponse ⟨t, none⟩ a) s = .next { s with dev := finish (deviceCheck .strayResponse .none s.dev) })
      ∧ (∀ r, Outstanding s.dev t r →
        (∀ l, r.write = true → exec (.strayResponse ⟨t, none⟩ (.data l)) s =
          .next { s with dev := finish (deviceCheck .strayResponse .none s.dev) })
        ∧ (r.write = false → exec (.strayResponse ⟨t, none⟩ .done) s =
          .next { s with dev := finish (deviceCheck .strayResponse .none s.dev) }))
      ∧ (∀ i, issuedAt s.dev t = some i → i.abandoned = true → (∀ k, i.request.job ≠ .capture k) →
        i.request.job ≠ .headLine → i.request.job ≠ .lateHeadLine →
        exec (.abandonedTagAnswer t a) s = .next { s with dev := finish (returned t i.request s.dev) })
      ∧ (∀ i k, issuedAt s.dev t = some i → i.abandoned = true → i.request.job = .capture k →
        let d := freeTag t s.dev
        let answered (e : Device) : Prop := exec (.abandonedTagAnswer t a) s = .next { s with dev := finish e }
        (s.dev.capture.slots.get k = none → answered (releaseLine i.request.line d))
        ∧ ∀ c, s.dev.capture.slots.get k = some c →
          (c.phase = .cancelled → answered (freeSlot k (releaseLine i.request.line d)))
          ∧ (c.phase ≠ .cancelled → c.owner = none → answered (releaseLine i.request.line d))
          ∧ (c.phase ≠ .cancelled → c.owner ≠ none → answered d))
      ∧ ∀ r c, Outstanding s.dev t r → r.job = .discard c → (a ≠ .done ∨ r.write = true) →
        ((∀ l, a ≠ .data l) ∨ r.write = false) →
        ∀ row ∈ [Instr.forwardedRequestAnswer, Instr.captureReadAnswer, Instr.recordLineAnswer, Instr.descriptorFetchAnswer,
            Instr.descriptorUpdateReadAnswer, Instr.descriptorUpdateWriteAnswer, Instr.anchorWriteLineAnswer,
            Instr.anchorReadAnswer, Instr.resumeDescriptorAnswer, Instr.scanReadAnswer, Instr.journalReadAnswer,
            Instr.restoreWriteAnswer, Instr.truncationDescriptorAnswer, Instr.commandFetchAnswer,
            Instr.faultRecordFirstLineAnswer, Instr.faultRecordClosingLineAnswer, Instr.abandonedTagAnswer,
            fun t => Instr.headLineWriteAnswer ⟨t, none⟩, fun t => Instr.reportWriteAnswer ⟨t, none⟩,
            fun t => Instr.strayResponse ⟨t, none⟩],
          exec (row t a) s = .next { s with dev := finish (returned t r s.dev) }

/-! ## Records, commits and the chain -/

/-- Which record is placed next: the front of the position queue, but while a pending mark's record is unplaced the oldest
entry of an older epoch, then the MARK record once no slot of an older epoch is in READING or WAITING_POSITION (R62, R93). -/
def Obligations.EpochBoundaryRule : Prop :=
  ∀ (d : Device) (st : StreamNo),
    let x := d.streams.get st
    (((∀ m, x.pendingMark = some m → m.record ≠ none)) →
      recordToPlace d st = match x.positions with
        | [] => none
        | p :: _ => some (.slot p.1))
    ∧ ∀ m, x.pendingMark = some m → m.record = none →
      (∀ before p after, x.positions = before ++ p :: after → (∀ b ∈ before, m.epoch ≤ b.2) → p.2 < m.epoch →
        recordToPlace d st = some (.slot p.1))
      ∧ ((∀ p ∈ x.positions, m.epoch ≤ p.2) →
        ((∀ k c, d.capture.slots.get k = some c → c.stream = st → c.epoch < m.epoch →
            c.phase ≠ .reading ∧ c.phase ≠ .waitingPosition) →
          recordToPlace d st = some .mark)
        ∧ ((∃ k c, d.capture.slots.get k = some c ∧ c.stream = st ∧ c.epoch < m.epoch
            ∧ (c.phase = .reading ∨ c.phase = .waitingPosition)) →
          recordToPlace d st = none))

/-- A record is placed in the current segment: it takes the next sequence, its address and the stamp, and its header and
image lines are offered as writes (R51, R63); at the sequence limit the stream is lost instead (R64). A record that needs
a new segment: room is made in a full history (`Obligations.FullHistoryMakesRoom`), the held descriptor is entered and its
anchor write offered (R69); it waits for a fetch in progress (R70);
with the chain at its end the stream becomes EXHAUSTED or BROKEN by its policy (R71), and in HOLDING the slot is cancelled
(R106; `Obligations.CaptureProceeds`). -/
def Obligations.RecordPlaced : Prop :=
  (∀ (s : State) (st : StreamNo) (x : Stream) (cur : CurrentSegment) (n : Nat) (p : Placeable),
     s.dev.streams.get st = x → Places s.dev st x → x.entering = false →
     s.dev.check.state = .normal → recordToPlace s.dev st = some p → x.current = some cur → x.nextSequence = some n →
     (n = 4294967295 → x.state ≠ .rollingBack →
       exec (.recordPlacement st) s = .next { s with dev := finish (loseStream st .sequenceLimit true 0 0 s.dev) })
     ∧ (∀ k, n = 4294967295 → x.state = .rollingBack → p = .slot k →
       exec (.recordPlacement st) s = .next { s with dev := finish (cancelSlot k s.dev) })
     ∧ (n < 4294967295 → cur.index < cur.contents.count →
       let address := cur.contents.base + cur.index * 128
       let moved : Stream := { x with nextSequence := some (n + 1), current := some { cur with index := cur.index + 1 } }
       let writes (job : Bool → Job) (header image : Line) : List PortRequest :=
         [⟨job false, address, true, BitVec.allOnes 64, header⟩, ⟨job true, address + 64, true, BitVec.allOnes 64, image⟩]
       (∀ k c image, p = .slot k → s.dev.capture.slots.get k = some c → c.image = some image →
         exec (.recordPlacement st) s = .next { s with dev := finish (offerAll
           (writes (.slotRecord k) (recordHeader 1 st.1 c.region.1 x.stamp.toNat n c.epoch c.line 0 image) image)
           { s.dev with
             streams := s.dev.streams.set st { moved with positions := x.positions.filter fun q => q.1 != k }
             capture := { s.dev.capture with
               slots := s.dev.capture.slots.set k
                 (some { c with sequence := some n, address := some address, phase := .writing }) } }) })
       ∧ (∀ m, p = .mark → x.pendingMark = some m →
         exec (.recordPlacement st) s = .next { s with dev := finish (offerAll
           (writes (.markRecord st) (recordHeader 2 st.1 0 x.stamp.toNat n m.epoch 0 m.label.toNat 0) 0)
           { s.dev with streams := s.dev.streams.set st { moved with
               pendingMark := some { m with record := some ⟨n, address, 0⟩ }
               operation := x.operation.map fun o => { o with sequence := n } } }) })))
  ∧ ∀ (s : State) (st : StreamNo) (x : Stream) (cur : CurrentSegment) (n : Nat) (p : Placeable),
      s.dev.streams.get st = x → Places s.dev st x → x.entering = false → s.dev.check.state = .normal →
      recordToPlace s.dev st = some p → x.current = some cur → x.nextSequence = some n → n < 4294967295 →
      cur.contents.count ≤ cur.index →
      (∀ a c, x.next = .held a c →
        let e := forcedRetirement st s.dev
        let y := e.streams.get st
        exec (.recordPlacement st) s = .next { s with dev := finish { e with streams := e.streams.set st { y with
          current := some ⟨a, c, 0⟩
          history := y.history ++ [⟨a, c.base, c.count, n, c.notify⟩]
          next := .absent
          entering := true
          anchorWaiting := joined (.entry (y.history.length + 1)) y.anchorWaiting } } })
      ∧ (∀ a, x.next = .fetching a → exec (.recordPlacement st) s = .next { s with dev := finish s.dev })
      ∧ (x.next = .absent → cur.contents.last = true →
        (∀ k, x.state = .rollingBack → p = .slot k →
          exec (.recordPlacement st) s = .next { s with dev := finish (cancelSlot k s.dev) })
        ∧ (x.state = .detaching → exec (.recordPlacement st) s = .next { s with dev := finish s.dev })
        ∧ (x.state = .active → x.policy = .stall →
          exec (.recordPlacement st) s = .next { s with dev := finish (pushReport
            { kind := .streamExhausted, stream := st.1, epoch := x.epoch.getD 0, sequence := n, address := cur.descriptor,
              first := x.positions.length, second := match x.stallLimit with
                | some k => k
                | none => 11 }
            { s.dev with
              streams := s.dev.streams.set st { x with state := .exhausted, stallStart := some s.dev.now } }) })
        ∧ (x.state = .active → x.policy = .breakStream →
          exec (.recordPlacement st) s = .next { s with dev := finish (loseStream st .exhaustion true 0 0 s.dev) }))

/-- Forced retirement before a segment entry: nothing while the history has room; with it full, the oldest marks that lie in
the oldest segment are retired with cause HISTORY, oldest first, and segments are freed (R99). -/
def Obligations.FullHistoryMakesRoom : Prop :=
  ∀ (d : Device) (st : StreamNo), let x := d.streams.get st
    (x.history.length < 16 → forcedRetirement st d = d)
    ∧ ∀ a b rest older newer, x.history = a :: b :: rest → 14 ≤ rest.length → x.marks = older ++ newer →
      (∀ m ∈ older, m.sequence < b.first) → (∀ m, newer.head? = some m → b.first ≤ m.sequence) →
      let y : Stream := { x with marks := newer }
      forcedRetirement st d = (older.zipIdx.foldl (fun d o => pushReport
        { kind := .markRetired, stream := st.1, epoch := o.1.epoch, label := o.1.label.toNat, sequence := o.1.sequence,
          first := 3, second := x.marks.length - 1 - o.2 } d) d).withStream st fun _ => y.freeSegments

/-- DONE for a line of a record: the count rises; at the second the record is acknowledged. ERROR, for a MARK record too: the
stream is lost with RECORD_WRITE, or the ATTACH ends with it. A slot whose stream is lost counts the lines written, and is
free after both answers, whatever they are (R46, R51, R56, R63, R66, R77, R131). While a device check is handled an ERROR does
nothing more to the stream but what it does to the requests of an ATTACH (R77, R163; `dropFault`, which
`Obligations.AnchorReadAnswered` spells out).
Readings of the model: log 63. -/
def Obligations.RecordLineAnswered : Prop :=
  ∀ (s : State) (t : MemTag) (r : PortRequest), Outstanding s.dev t r → r.write = true →
    let d := returned t r s.dev
    (∀ k b c, r.job = .slotRecord k b → s.dev.capture.slots.get k = some c → c.lost = false →
      (c.linesWritten = 0 → exec (.recordLineAnswer t .done) s = .next { s with dev := finish (d.withSlot k
        (some { c with linesAnswered := c.linesAnswered + 1, linesWritten := 1 })) })
      ∧ (∀ n, c.linesWritten = 1 → c.sequence = some n →
        exec (.recordLineAnswer t .done) s = .next { s with dev := finish (recordAcknowledged c.stream n (d.withSlot k
          (some { c with linesAnswered := c.linesAnswered + 1, linesWritten := 2, phase := .done }))) })
      ∧ (∀ n a, c.sequence = some n → c.address = some a → s.dev.check.state = .normal →
        CanBeLost (s.dev.streams.get c.stream) →
        exec (.recordLineAnswer t .error) s = .next { s with dev := finish (loseStream c.stream .recordWrite false n a
          (pushReport { kind := .check, status := .failed, stream := c.stream.1, sequence := n, address := a, first := 4 }
            (d.withSlot k (some { c with linesAnswered := c.linesAnswered + 1 })))) })
      ∧ (s.dev.check.state ≠ .normal → exec (.recordLineAnswer t .error) s = .next { s with dev := finish (dropFault c.stream
        (d.withSlot k (some { c with linesAnswered := c.linesAnswered + 1 }))) }))
    ∧ (∀ k b c, r.job = .slotRecord k b → s.dev.capture.slots.get k = some c → c.lost = true →
      let answered (written : Nat) : Device := if c.linesAnswered = 1 then freeSlot k d
        else d.withSlot k (some { c with linesAnswered := c.linesAnswered + 1, linesWritten := written })
      exec (.recordLineAnswer t .done) s = .next { s with dev := finish (answered (c.linesWritten + 1)) }
      ∧ exec (.recordLineAnswer t .error) s = .next { s with dev := finish (answered c.linesWritten) })
    ∧ (∀ st b m p, r.job = .markRecord st b → (s.dev.streams.get st).pendingMark = some m → m.record = some p →
      let counted (n : Nat) := d.withStream st fun x =>
        { x with pendingMark := some { m with record := some { p with linesWritten := n } } }
      (p.linesWritten = 0 → exec (.recordLineAnswer t .done) s = .next { s with dev := finish (counted 1) })
      ∧ (p.linesWritten = 1 → exec (.recordLineAnswer t .done) s =
        .next { s with dev := finish (recordAcknowledged st p.sequence (counted 2)) })
      ∧ (s.dev.check.state = .normal → CanBeLost (s.dev.streams.get st) → exec (.recordLineAnswer t .error) s =
        .next { s with dev := finish (loseStream st .recordWrite false p.sequence p.address (pushReport
          { kind := .check, status := .failed, stream := st.1, sequence := p.sequence, address := p.address, first := 4 }
          d)) })
      ∧ (s.dev.check.state = .normal → (s.dev.streams.get st).state = .opening → exec (.recordLineAnswer t .error) s =
        .next { s with dev := finish (endAttach st .failed 4 p.sequence p.address d) })
      ∧ (s.dev.check.state ≠ .normal → exec (.recordLineAnswer t .error) s = .next { s with dev := finish (dropFault st d) }))

/-- The committed sequence rises as far as the acknowledged set allows, and no farther; what it passes leaves the set
(R65). An acknowledged record of a stream that is not lost: its sequence joins the set; when the committed sequence rises,
the slots it covers are released, a covered pending mark commits, and the freed list is tested (R52, R65, R90, R95). For a
lost stream nothing moves (R66). The slots released are the stream's in DONE at or below the committed sequence, in ascending
sequence; of each the entry that names it becomes CAPTURED, its owner enters READY in class C5, and the slot becomes free
(R52; `Obligations.SharedOperations`).
Readings of the model: log 49. -/
def Obligations.RecordAcknowledged : Prop :=
  (∀ (acknowledged : List Nat) (n c : Nat), acknowledged.Pairwise (· < ·) → (∀ a ∈ acknowledged, c < a) → c < n →
     let r := riseThrough (insertSequence n acknowledged) c
     c ≤ r.2 ∧ (∀ m, c < m → m ≤ r.2 → m = n ∨ m ∈ acknowledged) ∧ r.2 + 1 ∉ r.1
     ∧ (∀ m, m ∈ r.1 ↔ (m = n ∨ m ∈ acknowledged) ∧ r.2 < m) ∧ r.1.Pairwise (· < ·))
  ∧ ∀ (d : Device) (st : StreamNo) (n : Nat),
      let x := d.streams.get st
      ((x.state = .broken ∨ x.state = .faulted) → recordAcknowledged st n d = d)
      ∧ (∀ c, x.state ≠ .broken → x.state ≠ .faulted → x.committed = some c →
        let r := riseThrough (insertSequence n x.acknowledged) c
        let e : Device :=
          { d with streams := d.streams.set st { x with acknowledged := r.1, committed := some r.2 } }
        recordAcknowledged st n d = if r.2 = c then e else testFreed st (testMark st (releaseCommitted st r.2 e)))
      ∧ (∃ released : List (SlotNo × Slot), releaseCommitted st n d = released.foldl releaseSlot d
        ∧ released.Pairwise (fun p q => p.2.sequence.getD 0 ≤ q.2.sequence.getD 0) ∧ (released.map (·.1)).Nodup
        ∧ ∀ k c, (k, c) ∈ released ↔
          d.capture.slots.get k = some c ∧ c.stream = st ∧ c.phase = .done ∧ c.sequence.getD 0 ≤ n)
      ∧ ∀ (k : SlotNo) (c : Slot),
        let captured : Device := { d with capture := { d.capture with
          filter := if c.linked = true then
              d.capture.filter.map fun e => if e.state = .pending k then { e with state := .captured } else e
            else d.capture.filter } }
        (c.owner = none → releaseSlot d (k, c) = freeSlot k captured)
        ∧ ∀ g q, c.owner = some g → d.path.requests.get g = some q →
          releaseSlot d (k, c) = freeSlot k { captured with
            path := { d.path with requests := d.path.requests.set g (some { q with state := .ready }) }
            arbiter := { d.arbiter with
              waiting := d.arbiter.waiting ++ [⟨.forward g, q.line, q.write, q.mask, q.data⟩] } }

/-- A pending mark whose record is committed: the initial mark joins the table and the second anchor write of ATTACH FRESH is
offered (R100, R130). Of any other mark: with a full table the oldest mark is retired; the mark
joins the table, segments below the freeing limit leave the history, and an anchor write is offered (R88, R89, R95).
Freeing segments takes from the front of the history as long as the next entry begins at or below the limit, and never the
current segment; the freed ones join the freed list with their last sequences (R89, R90). The freeing limit is the lower of the
oldest held mark's sequence and that of the pending mark's placed record, as far as there are such, and unbounded with neither
(R89). -/
def Obligations.MarkCommits : Prop :=
  (∀ (d : Device) (st : StreamNo) (x : Stream) (m : PendingMark) (p : PlacedMark) (c : Nat), d.streams.get st = x →
     x.pendingMark = some m → m.record = some p → x.committed = some c → p.sequence ≤ c →
     (x.state = .opening → x.marks.length < 8 →
       testMark st d = { d with streams := d.streams.set st { x with
         marks := x.marks ++ [⟨m.epoch, m.label, p.sequence⟩], pendingMark := none
         anchorWaiting := joined .attachSecond x.anchorWaiting } })
     ∧ (x.state ≠ .opening → x.marks.length < 8 →
       let y : Stream := { x with marks := x.marks ++ [⟨m.epoch, m.label, p.sequence⟩], pendingMark := none }
       testMark st d = { d with streams := d.streams.set st { y.freeSegments with
         operation := x.operation.map fun o => { o with sequence := p.sequence, retired := 0, freed := y.freeable }
         anchorWaiting := joined .markCommit x.anchorWaiting } })
     ∧ (∀ o rest, x.state ≠ .opening → x.marks = o :: rest → 7 ≤ rest.length →
       let y : Stream := { x with marks := rest ++ [⟨m.epoch, m.label, p.sequence⟩], pendingMark := none }
       testMark st d = pushReport
         { kind := .markRetired, stream := st.1, epoch := o.epoch, label := o.label.toNat, sequence := o.sequence,
           first := 1, second := rest.length }
         { d with streams := d.streams.set st { y.freeSegments with
           operation := x.operation.map fun o => { o with sequence := p.sequence, retired := 1, freed := y.freeable }
           anchorWaiting := joined .markCommit x.anchorWaiting } }))
  ∧ (∀ x : Stream, freeingLimit x = ((x.marks.head?.map fun m => m.sequence).toList
      ++ ((x.pendingMark.bind fun m => m.record).map fun p => p.sequence).toList).min?)
  ∧ ∀ x : Stream,
      ∃ n, x.freeSegments.history = x.history.drop n ∧ (x.history ≠ [] → n < x.history.length) ∧ x.freeable = n
      ∧ (∀ i (h : i + 1 < x.history.length), i < n → ∀ l, freeingLimit x = some l → x.history[i + 1].first ≤ l)
      ∧ (∀ (h : n + 1 < x.history.length), ∃ l, freeingLimit x = some l ∧ l < x.history[n + 1].first)
      ∧ x.freeSegments.freed = x.freed ++ ((x.history.zip (x.history.drop 1)).take n).map fun e =>
          ⟨e.1.descriptor, e.1.base, e.2.first - 1, .waiting⟩

/-- A fetched descriptor is judged by Table 4-3: valid, it is held, and an EXTEND that waited for it completes, after an
EXHAUSTED stream has become ACTIVE and its waiting record has been placed as RECORD_PLACEMENT does
(`Obligations.RecordPlaced`); invalid or unreadable, the stream is lost; for a stream that waits for none the answer is
discarded (R67, R68, R72, R76, R77). A descriptor's fields are read out of its 32 bytes by Table 11-5. The first descriptor
of ATTACH FRESH: valid, it is kept, and with both copies in the
stream is made fresh (`Obligations.AnchorReadAnswered`); invalid or unreadable, the ATTACH ends (R129, R131), as it does by the
prefetch of a stream in OPENING or RESUMING (R131, R137). While a device check is handled these failures are dropped (R77, R163;
`dropFault`, which `Obligations.AnchorReadAnswered` spells out).
Readings of the model: logs 35, 61, 63, 67. -/
def Obligations.DescriptorJudged : Prop :=
  (∀ (w : BitVec 8) (c : Descriptor), c.valid w = true ↔
    c.format = 0xD5 ∧ 16 ≤ c.count ∧ c.count ≤ 65536 ∧ c.base % 128 = 0 ∧ c.base + c.count * 128 ≤ 2 ^ 40
    ∧ (c.last = true ∨ (c.link % 32 = 0 ∧ c.link < 2 ^ 40))
    ∧ (windowBase w + 4096 ≤ c.base ∨ c.base + c.count * 128 ≤ windowBase w))
  ∧ (∀ (l : Line) (a : Nat), let o : Nat := if a % 64 < 32 then 0 else 32
      parseDescriptor l a = {
        format := bytesAt l o 1, last := l.getLsbD (8 * (o + 1)), notify := l.getLsbD (8 * (o + 1) + 1)
        count := bytesAt l (o + 0x04) 4, base := bytesAt l (o + 0x08) 8, link := bytesAt l (o + 0x10) 8 })
  ∧ (∀ (s : State) (t : MemTag) (r : PortRequest) (st : StreamNo) (x : Stream), Outstanding s.dev t r → r.write = false →
    r.job = .descriptor st → s.dev.streams.get st = x →
    let d := returned t r s.dev
    (∀ a l, x.next = .fetching a → (parseDescriptor l a).valid s.dev.winsel = true →
      let held : Stream := { x with next := .held a (parseDescriptor l a) }
      (x.extension = none → exec (.descriptorFetchAnswer t (.data l)) s =
        .next { s with dev := finish { d with streams := d.streams.set st held } })
      ∧ (∀ e target, x.extension = some e → e.stage = .fetching target → x.state ≠ .exhausted →
        exec (.descriptorFetchAnswer t (.data l)) s = .next { s with dev := finish (streamDone st
          { kind := .commandDone, tag := e.tag, address := e.descriptor, second := target }
          { d with streams := d.streams.set st { held with extension := none } }) })
      ∧ (∀ e target, x.extension = some e → e.stage = .fetching target → x.state = .exhausted →
        let active : Device := { d with streams := d.streams.set st { held with state := .active, stallStart := none } }
        let placed : Device := (tryRecordPlacement st active).getD active
        exec (.descriptorFetchAnswer t (.data l)) s = .next { s with dev := finish (streamDone st
          { kind := .commandDone, tag := e.tag, address := e.descriptor, second := target }
          { placed with streams := placed.streams.set st { placed.streams.get st with extension := none } }) }))
    ∧ (∀ a l, x.next = .fetching a → (parseDescriptor l a).valid s.dev.winsel = false → s.dev.check.state = .normal →
      CanBeLost x → exec (.descriptorFetchAnswer t (.data l)) s = .next { s with dev := finish (
        loseStream st .descriptorInvalid false 0 a (pushReport
          { kind := .check, status := .failed, stream := st.1, address := a, first := 6 } d)) })
    ∧ (∀ a, x.next = .fetching a → s.dev.check.state = .normal → CanBeLost x →
      exec (.descriptorFetchAnswer t .error) s = .next { s with dev := finish (
        loseStream st .descriptorFetch false 0 a (pushReport
          { kind := .check, status := .failed, stream := st.1, address := a, first := 5 } d)) })
    ∧ (∀ a, x.next = .fetching a → s.dev.check.state = .normal → (x.state = .opening ∨ x.state = .resuming) →
      (∀ l, (parseDescriptor l a).valid s.dev.winsel = false → exec (.descriptorFetchAnswer t (.data l)) s =
        .next { s with dev := finish (endAttach st .failed 6 0 a d) })
      ∧ exec (.descriptorFetchAnswer t .error) s = .next { s with dev := finish (endAttach st .failed 5 0 a d) })
    ∧ (∀ a, x.next = .fetching a → s.dev.check.state ≠ .normal →
      (∀ l, (parseDescriptor l a).valid s.dev.winsel = false →
        exec (.descriptorFetchAnswer t (.data l)) s = .next { s with dev := finish (dropFault st d) })
      ∧ exec (.descriptorFetchAnswer t .error) s = .next { s with dev := finish (dropFault st d) })
    ∧ (∀ l, x.next = .absent → exec (.descriptorFetchAnswer t (.data l)) s = .next { s with dev := finish d }))
  ∧ ∀ (s : State) (t : MemTag) (r : PortRequest) (st : StreamNo) (x : Stream) (a : Attach), Outstanding s.dev t r →
    r.write = false → r.job = .firstDescriptor st → s.dev.streams.get st = x → x.attach = some a →
    let d := returned t r s.dev
    let answered (m : MemAnswer) (d : Device) : Prop :=
      exec (.descriptorFetchAnswer t m) s = .next { s with dev := finish d }
    (∀ l, let c := parseDescriptor l a.firstAddress
      let kept : Stream := { x with attach := some { a with first := some c } }
      (c.valid s.dev.winsel = true → bothCopies a = none →
        answered (.data l) { d with streams := d.streams.set st kept })
      ∧ (∀ p q, c.valid s.dev.winsel = true → bothCopies a = some (p, q) → x.current = none →
        let fresh : Stream := { kept.freshen (newestValid p q) a.firstAddress c with
          anchorWaiting := joined .attachFirst x.anchorWaiting }
        answered (.data l) { d with streams := d.streams.set st fresh })
      ∧ (c.valid s.dev.winsel = false → s.dev.check.state = .normal → x.state = .opening →
        answered (.data l) (endAttach st .failed 6 0 a.firstAddress d)))
    ∧ (s.dev.check.state = .normal → x.state = .opening → answered .error (endAttach st .failed 5 0 a.firstAddress d))
    ∧ (s.dev.check.state ≠ .normal → answered .error (dropFault st d)
      ∧ ∀ l, (parseDescriptor l a.firstAddress).valid s.dev.winsel = false → answered (.data l) (dropFault st d))

/-- EXTEND: with no entry and no fetch in progress its target is chosen, or none is (R74); the update reads the line under
its lock and writes it back with the new link; then the current descriptor's copy is relinked and the descriptor fetched,
or the extension link is set and the EXTEND completes (log 58); an ERROR to either loses the stream (R74 to R76), but while a
device check is handled (R77, R163; `dropFault`, which `Obligations.AnchorReadAnswered` spells out). The line written back
differs from the line read in bytes 10h to 17h of the descriptor, which hold the new link, and in bit 0 of its byte 01h, which is
clear, and nowhere else (Table 11-5). EXTEND is judged by its checks in order, and taken whatever operation runs on the stream
(R73, R147).
Readings of the model: logs 50, 58, 61, 63. -/
def Obligations.ExtendProceeds : Prop :=
  (∀ (s : State) (st : StreamNo) (x : Stream) (e : Extension), s.dev.streams.get st = x → x.extension = some e →
     (e.stage = .choosing → x.entering = false →
       let updating (current : Bool) (target : Nat) : Device := offer ⟨.updateRead st, lineOf target, false, 0, 0⟩
         { s.dev with
           streams := s.dev.streams.set st { x with extension := some { e with stage := .updating current target } } }
       let refused : Device := streamDone st
         { kind := .commandDone, tag := e.tag, status := .chainNotEnded, address := e.descriptor }
         { s.dev with streams := s.dev.streams.set st { x with extension := none } }
       (∀ c, x.current = some c → x.next = .absent →
         exec (.extendTargetChoice st) s = .next { s with dev := finish (
           if c.contents.last = true then updating true c.descriptor else refused) })
       ∧ (∀ a c, x.next = .held a c →
         exec (.extendTargetChoice st) s = .next { s with dev := finish (
           if c.last = true ∧ x.extensionLink = none then updating false a else refused) }))
     ∧ ∀ t r current target, Outstanding s.dev t r → e.stage = .updating current target →
       (∀ l, r.job = .updateRead st → r.write = false →
         exec (.descriptorUpdateReadAnswer t (.data l)) s = .next { s with dev := finish (enterClass
           ⟨.updateWrite st, r.line, true, BitVec.allOnes 64, updatedDescriptorLine l target e.descriptor⟩
           (freeTag t s.dev)) })
       ∧ (r.job = .updateRead st → r.write = false → s.dev.check.state = .normal → CanBeLost x →
         exec (.descriptorUpdateReadAnswer t .error) s = .next { s with dev := finish (
           loseStream st .descriptorUpdate false 0 target (pushReport
             { kind := .check, status := .failed, stream := st.1, address := target, first := 7 } (returned t r s.dev))) })
       ∧ (s.dev.check.state ≠ .normal →
         (r.job = .updateRead st → r.write = false → exec (.descriptorUpdateReadAnswer t .error) s =
           .next { s with dev := finish (dropFault st (returned t r s.dev)) })
         ∧ (r.job = .updateWrite st → r.write = true → exec (.descriptorUpdateWriteAnswer t .error) s =
           .next { s with dev := finish (dropFault st (returned t r s.dev)) }))
       ∧ (r.job = .updateWrite st → r.write = true →
         let d := returned t r s.dev
         (current = true → ∀ c, x.current = some c →
           exec (.descriptorUpdateWriteAnswer t .done) s = .next { s with dev := finish (offer
             ⟨.descriptor st, lineOf e.descriptor, false, 0, 0⟩
             { d with streams := d.streams.set st { x with
               current := some { c with contents := { c.contents with last := false, link := e.descriptor } }
               extension := some { e with stage := .fetching target }
               next := .fetching e.descriptor } }) })
         ∧ (current = false →
           exec (.descriptorUpdateWriteAnswer t .done) s = .next { s with dev := finish (streamDone st
             { kind := .commandDone, tag := e.tag, address := e.descriptor, second := target }
             { d with streams := d.streams.set st { x with extensionLink := some e.descriptor, extension := none } }) })
         ∧ (s.dev.check.state = .normal → CanBeLost x →
           exec (.descriptorUpdateWriteAnswer t .error) s = .next { s with dev := finish (
             loseStream st .descriptorUpdate false 0 target (pushReport
               { kind := .check, status := .failed, stream := st.1, address := target, first := 7 } d)) })))
  ∧ (∀ (l : Line) (target link : Nat), target % 32 = 0 → link < 2 ^ 64 →
      let o := target % 64
      let u := updatedDescriptorLine l target link
      bytesAt u (o + 0x10) 8 = link ∧ u.getLsbD (8 * (o + 1)) = false
      ∧ ∀ i < 512, i ≠ 8 * (o + 1) → (i < 8 * (o + 0x10) ∨ 8 * (o + 0x18) ≤ i) → u.getLsbD i = l.getLsbD i)
  ∧ ∀ (s : State) (h : CmdHead) (descriptor : BitVec 64), Taking s.dev →
      let d := chained h s.dev
      let refused (status : Status) := exec (.extend h descriptor) s = .next { s with dev := finish (commandDone
        { kind := .commandDone, tag := h.tag, status := status, stream := h.target.toNat } d) }
      let good : Prop := h.target.toNat < 4 ∧ descriptor.toNat % 32 = 0 ∧ descriptor.toNat < 2 ^ 40
      (¬ good → refused .badArgument)
      ∧ (good → ∀ st : StreamNo, h.target.toNat = st.1 → let x := s.dev.streams.get st
        let busy : Prop := x.extension ≠ none ∨ x.state = .rollingBack ∨ x.state = .resuming
        (busy → refused .streamBusy)
        ∧ (¬ busy → x.state ≠ .active → x.state ≠ .exhausted → x.state ≠ .detaching → refused .streamState)
        ∧ (¬ busy → (x.state = .active ∨ x.state = .exhausted ∨ x.state = .detaching) →
          exec (.extend h descriptor) s = .next { s with dev := finish { d with
            streams := d.streams.set st { x with extension := some ⟨h.tag, descriptor.toNat, .choosing⟩ } } }))

/-! ## Anchors and ATTACH -/

/-- ATTACH is judged by its checks in order; taken, it occupies the operation slot, takes the anchor address, and offers
its 32 anchor reads unless an invalidation of the stream's earlier life is left, and for FRESH the first descriptor's
fetch, all in ascending address (R33, R128, R129).
Readings of the model: log 29. -/
def Obligations.AttachTaken : Prop :=
  ∀ (s : State) (h : CmdHead) (policy stall : BitVec 8) (label : BitVec 32) (anchor first : BitVec 64), Taking s.dev →
    let fresh := exec (.attachFresh h policy stall label anchor first) s
    let resume := exec (.attachResume h anchor) s
    let d := chained h s.dev
    let refused (status : Status) : Host.Outcome State Fault Refusal := .next { s with dev := finish (commandDone
      { kind := .commandDone, tag := h.tag, status := status, stream := h.target.toNat } d) }
    let placed : Prop := h.target.toNat < 4 ∧ anchor.toNat % 2048 = 0 ∧ anchor.toNat < 2 ^ 40
      ∧ (windowBase s.dev.winsel + 4096 ≤ anchor.toNat ∨ anchor.toNat + 2048 ≤ windowBase s.dev.winsel)
    let placedFresh : Prop := placed ∧ first.toNat % 32 = 0 ∧ first.toNat < 2 ^ 40 ∧ policy.toNat ≤ 1 ∧ stall.toNat ≤ 11
    (¬ placed → resume = refused .badArgument) ∧ (¬ placedFresh → fresh = refused .badArgument)
    ∧ (placed → ∀ st : StreamNo, h.target.toNat = st.1 →
      let x := s.dev.streams.get st
      let reads : List PortRequest := if x.invalidation = .none then
          [Copy.a, Copy.b].flatMap fun c => (List.finRange 16).map fun i =>
            ⟨.anchorRead st c i, anchor.toNat + (if c = .a then 0 else 1024) + 64 * i.1, false, 0, 0⟩
        else []
      let begun (isFresh : Bool) (firstAddress : Nat) : Attach :=
        { fresh := isFresh, readsOffered := x.invalidation = .none, failed := false
          copyA := Table.fill 16 none, copyB := Table.fill 16 none
          judged := false, firstAddress := firstAddress, first := none, firstAnchored := false, target := none
          targetSequence := none, scan := none }
      let firstRead : PortRequest := ⟨.firstDescriptor st, lineOf first.toNat, false, 0, 0⟩
      let notAbove (r : PortRequest) : Bool := decide (r.line ≤ lineOf first.toNat)
      (¬ Unoccupied x → resume = refused .streamBusy ∧ (placedFresh → fresh = refused .streamBusy))
      ∧ (Unoccupied x → x.state ≠ .detached →
        resume = refused .streamState ∧ (placedFresh → fresh = refused .streamState))
      ∧ (Unoccupied x → x.state = .detached →
        resume = .next { s with dev := finish (offerAll reads { d with streams := d.streams.set st { x with
          state := .resuming
          anchorAddress := anchor.toNat
          operation := some ⟨.attach, h.tag, 0, 0, 0, 0, 0⟩
          attach := some (begun false 0) } }) }
        ∧ (placedFresh → fresh = .next { s with dev := finish (
          offerAll (reads.takeWhile notAbove ++ firstRead :: reads.dropWhile notAbove)
            { d with streams := d.streams.set st { x with
              state := .opening
              anchorAddress := anchor.toNat
              policy := if policy = 1 then .breakStream else .stall
              stallLimit := if stall.toNat ≤ 10 then some stall.toNat else none
              epoch := some 1
              operation := some ⟨.attach, h.tag, 1, label, 0, 0, 0⟩
              pendingMark := some ⟨1, label, h.tag, none⟩
              nextSequence := some 1
              committed := some 0
              attach := some (begun true first.toNat) } }) })))

/-- The waiting anchor write is issued to the copy other than the newest, with the generation plus one and the contents as
they stand, or as frozen for an invalidation, as sixteen line writes; while a device check is handled, only the Check Unit's
own (R125, R126, R163, R167). Of writes due at one event the one at the lowest address is issued first, once what precedes
them is done (R33, logs 1, 2). DONE for a line of an anchor write: the count rises; at the sixteenth the generation and the
newest copy move, the freed list is tested, each owner is told in the order of joining (`Obligations.AnchorOwnersTold`, log 46),
and the Check Unit's own invalidation follows a write it awaited (R90, R98, R126, R167). ERROR: nothing moves, and the write's
owner decides: the stream is lost with ANCHOR_WRITE, the ATTACH ends with it, a loss's invalidation is a device check
INVALIDATION_WRITE, the Check Unit's own gives NOT_INVALIDATED, and a write whose owners a loss has dropped nothing; the other
lines of an ATTACH's write are withdrawn or their answers discarded, those of any other are still written (R78, R79, R126, R131,
R137, R167, log 34); while a device check is handled the stream stays as it is, and an ATTACH's other requests go as at its
failure (R77, R163, log 53; `dropFault`, which `Obligations.AnchorReadAnswered` spells out).
Readings of the model: logs 2, 20, 34, 46, 53, 55, 63, 68, 69. -/
def Obligations.AnchorWriteIssued : Prop :=
  (∀ (s : State) (st : StreamNo) (x : Stream) (w : AnchorOffer), s.dev.streams.get st = x → x.anchorWaiting = some w →
     let issued (base : Nat) (c : AnchorContents) : Device :=
       let copy : Copy := if x.newest = .a then .b else .a
       let address := if x.newest = .a then base + 1024 else base
       offerAll ((List.finRange 16).map fun i => ⟨.anchorWrite st i, address + 64 * i.1, true, BitVec.allOnes 64,
           (anchorImage c (x.generation + 1)).extractLsb' (512 * i.1) 512⟩)
         { s.dev with streams := s.dev.streams.set st { x with
           anchorWaiting := none
           anchorOutstanding := some ⟨w.occasions, copy, address, x.generation + 1, 0⟩
           invalidation := if (lossEpoch w.occasions).isSome = true then .outstanding else x.invalidation
           freed := x.freed.map fun f => if f.anchor = .waiting then { f with anchor := .outstanding } else f } }
     let outcome (d : Device) : Prop := exec (.anchorWriteIssue st) s = .next { s with dev := finish d }
     (x.anchorOutstanding = none → (s.dev.check.state = .normal ∨ .check ∈ w.occasions) →
       (∀ base c, w.frozen = some (base, c) → outcome (issued base c))
       ∧ (∀ h, w.frozen = none → x.history.getLast? = some h → h.first ≤ x.committed.getD 0 + 1 →
         outcome (issued x.anchorAddress {
           stamp := x.stamp
           cleanDetach := decide (.detach ∈ w.occasions)
           invalidated := false
           rollbackPending := (pendingTarget w.occasions).isSome
           target := (pendingTarget w.occasions).getD 0
           epoch := x.epoch.getD 0 - (if x.pendingMark = none then 0 else 1)
           nextSequence := x.committed.getD 0 + 1
           marks := x.marks
           history := x.history
           policy := x.policy
           stallLimit := x.stallLimit }))
       ∧ (∀ h, w.frozen = none → x.history.getLast? = some h → x.committed.getD 0 + 1 < h.first → outcome s.dev))
     ∧ (x.anchorOutstanding ≠ none ∨ (s.dev.check.state ≠ .normal ∧ .check ∉ w.occasions) → outcome s.dev))
  ∧ (∀ d : Device, pathStep d = none → (∀ k, trySlotQueueService k d = none) → (∀ st, tryRecordPlacement st d = none) →
      (∀ st, tryExtendTargetChoice st d = none) → tryEngineClaimHandoff d = none → tryResumedHoldingEnd d = none →
      tryHoldingEnd d = none → (∀ st, tryDetachFinalAnchor st d = none) →
      let target (st : StreamNo) : Nat :=
        let x := d.streams.get st
        let base : Nat := match x.anchorWaiting with
          | some ⟨_, some (a, _)⟩ => a
          | _ => x.anchorAddress
        if x.newest = .a then base + 1024 else base
      ∀ st e, tryAnchorWriteIssue st d = some e → ∃ first, innerStep d = tryAnchorWriteIssue first d
        ∧ (tryAnchorWriteIssue first d).isSome = true ∧ target first ≤ target st
        ∧ (target first = target st → first ≤ st))
  ∧ (∀ (s : State) (t : MemTag) (r : PortRequest) (st : StreamNo) (i : Fin 16) (x : Stream) (w : AnchorWrite),
      Outstanding s.dev t r → r.job = .anchorWrite st i → r.write = true → s.dev.streams.get st = x →
      x.anchorOutstanding = some w →
      let d := returned t r s.dev
      let answered (a : MemAnswer) (d : Device) : Prop :=
        exec (.anchorWriteLineAnswer t a) s = .next { s with dev := finish d }
      (w.acknowledged < 15 → answered .done { d with
        streams := d.streams.set st { x with anchorOutstanding := some { w with acknowledged := w.acknowledged + 1 } } })
      ∧ (w.acknowledged = 15 →
        let e := testFreed st { d with streams := d.streams.set st { x with
          generation := w.generation
          newest := w.copy
          anchorOutstanding := none
          freed := x.freed.map fun f => if f.anchor = .outstanding then { f with anchor := .acknowledged } else f } }
        answered .done (checkAfterAnchor st (w.occasions.foldl (tellOwner st) e))
        ∧ (∀ o, s.dev.check.state = .normal → w.occasions = [.release] → x.operation = some o →
          answered .done (streamDone st
            { kind := .commandDone, tag := o.tag, epoch := o.epoch, first := o.retired, second := o.freed }
            (e.withStream st fun y => { y with operation := none }))))
      ∧ (let e : Device := { d with streams := d.streams.set st { x with anchorOutstanding := none } }
        let mine (j : Job) : Bool := (List.finRange 16).any fun i => j == .anchorWrite st i
        let rest : Device := discardLater mine e
        (lossEpoch w.occasions ≠ none →
          answered .error (checkAfterAnchor st (deviceCheckFor (some st) .invalidationWrite .none rest)))
        ∧ (lossEpoch w.occasions = none → .check ∈ w.occasions → answered .error (checkAfterAnchor st { rest with
          check := { rest.check with
            results := rest.check.results.set st .notInvalidated, stages := rest.check.stages.set st .none } }))
        ∧ (w.occasions = [] → answered .error (checkAfterAnchor st rest))
        ∧ (∀ o os, w.occasions = o :: os → lossEpoch w.occasions = none → .check ∉ w.occasions →
          s.dev.check.state = .normal →
          (CanBeLost x → answered .error (loseStream st .anchorWrite false 0 w.address (pushReport
            { kind := .check, status := .failed, stream := st.1, address := w.address, first := 8 } rest)))
          ∧ ((x.state = .opening ∨ x.state = .resuming) →
            answered .error (endAttach st .failed 8 0 w.address (abandon mine e))))
        ∧ (∀ o os, w.occasions = o :: os → lossEpoch w.occasions = none → .check ∉ w.occasions →
          s.dev.check.state ≠ .normal → answered .error (checkAfterAnchor st (dropFault st
            (if x.state = .opening ∨ x.state = .resuming then abandon mine e else rest))))))
  ∧ (∀ (d : Device) (st : StreamNo), let x := d.streams.get st
      ∀ settled kept, x.freed = settled ++ kept →
        (∀ f ∈ settled, f.anchor = .acknowledged ∧ ∃ c, x.committed = some c ∧ f.last ≤ c) →
        (∀ f, kept.head? = some f → f.anchor ≠ .acknowledged ∨ ∀ c, x.committed = some c → c < f.last) →
        testFreed st d = settled.foldl (fun d f => pushReport
          { kind := .segmentFreed, stream := st.1, sequence := f.last, address := f.descriptor, first := x.history.length,
            second := f.base } d) { d with streams := d.streams.set st { x with freed := kept } })
  ∧ ∀ (d : Device) (st : StreamNo),
      let e : Device := if d.check.stages.get st = .awaiting then offerInvalidation st d else d
      (d.check.state ≠ .invalidate → checkAfterAnchor st d = d)
      ∧ (d.check.state = .invalidate → (∀ i, e.check.stages.get i = .none) → checkAfterAnchor st d = enterClose e)
      ∧ (d.check.state = .invalidate → (∃ i, e.check.stages.get i ≠ .none) → checkAfterAnchor st d = e)

/-- What each owner does at the acknowledgement of an anchor write that serves it (`Obligations.AnchorWriteIssued`): a segment
entry ends with its report and the next fetch (R67, R69); MARK, RELEASE and DETACH complete, an EXTEND that the DETACH overtook
ending FAILED (R82, R83, R96, R98, R143, log 43); the engine
goes on to RESTORING, or completes the rollback, only while no device check is handled (R108, R115, R117, R118); an ATTACH
goes on, or completes (R130, R135); a loss's invalidation ends the degradations, with REGION_DEGRADED for each region first
(R15, R79), and the anchor reads of an ATTACH that waited for it are offered (R128), unless it has failed meanwhile (log 63); the
Check Unit's own gives INVALIDATED (R167). `settlePath` runs the Request Path's inner steps to rest (log 1).
Readings of the model: logs 1, 18, 31, 38, 39, 43, 52, 63, 68. -/
def Obligations.AnchorOwnersTold : Prop :=
  (∀ (st : StreamNo) (d : Device), let x := d.streams.get st
    let told (o : Occasion) (e : Device) : Prop := tellOwner st d o = e
    let active : Device := { d with streams := d.streams.set st { x with state := .active } }
    let ended (e : Device) : Device :=
      e.withStream st fun y => { y with operation := none, attach := none }
    (∀ n, told (.entry n) (fetchFollowing st (reportEntered st n (d.withStream st fun x => { x with entering := false }))))
    ∧ (∀ o, x.operation = some o →
      told .markCommit (streamDone st
        { kind := .commandDone, tag := o.tag, epoch := o.epoch, label := o.label.toNat, sequence := o.sequence,
          first := o.retired, second := o.freed }
        (d.withStream st fun x => { x with operation := none }))
      ∧ told .release (streamDone st
        { kind := .commandDone, tag := o.tag, epoch := o.epoch, first := o.retired, second := o.freed }
        (d.withStream st fun x => { x with operation := none }))
      ∧ (let detached : Device := streamDone st { kind := .commandDone, tag := o.tag, second := x.committed.getD 0 }
          ((abandon (fun j => j == .descriptor st || j == .updateRead st || j == .updateWrite st) d).withStream st fun x =>
            { Stream.cold with
              anchorAddress := x.anchorAddress, stamp := x.stamp, generation := x.generation, newest := x.newest
              policy := x.policy, stallLimit := x.stallLimit, invalidation := x.invalidation
              anchorWaiting := x.anchorWaiting, anchorOutstanding := x.anchorOutstanding })
        (x.extension = none → told .detach detached)
        ∧ ∀ e, x.extension = some e → told .detach (streamDone st
          { kind := .commandDone, tag := e.tag, status := .failed, address := e.descriptor } detached))
      ∧ told .attachSecond (streamDone st
        { kind := .commandDone, tag := o.tag, epoch := 1, label := o.label.toNat, sequence := 1
          address := x.anchorAddress, first := x.stamp.toNat } (ended (settlePath active)))
      ∧ (∀ a c, x.attach = some a → a.scan = some c → told .resume (streamDone st
        { kind := .commandDone, tag := o.tag, epoch := x.epoch.getD 0
          label := match x.marks.getLast? with
            | some m => m.label.toNat
            | none => 0
          sequence := x.committed.getD 0, address := x.anchorAddress, first := x.stamp.toNat
          second := c.accepted + 65536 * c.marks } (ended (fetchFollowing st (settlePath active)))))
      ∧ (d.engine.owner = some st → d.engine.phase = .finalAnchor → d.check.state = .normal →
        let resumed := ended (fetchFollowing st (settlePath (resumeRegions st active)))
        let freed : Device := { resumed with engine := { Engine.cold with claims := d.engine.claims } }
        told .final (streamDone st (match d.engine.origin with
          | .command => { kind := .commandDone, tag := o.tag, epoch := o.epoch, label := o.label.toNat
                          sequence := o.sequence, address := x.anchorAddress, first := d.engine.applied
                          second := o.retired }
          | .resume => { kind := .commandDone, tag := o.tag, region := 16, epoch := x.epoch.getD 0
                         label := match x.marks.getLast? with
                           | some m => m.label.toNat
                           | none => 0
                         sequence := x.committed.getD 0, address := x.anchorAddress, first := x.stamp.toNat
                         second := d.engine.applied })
          ((tryEngineClaimHandoff freed).getD freed))))
    ∧ (∀ e, d.engine.owner = some st → d.engine.phase = .pendingAnchor → d.check.state = .normal →
      told (.pending e) (refillWindow 8 st { d with engine := { d.engine with phase := .restoring } }))
    ∧ (∀ e, d.check.state ≠ .normal → told (.pending e) d ∧ told .final d)
    ∧ told .attachFirst
      ((fetchFollowing st (reportEntered st 1 d)).withAttach st (fun a => { a with firstAnchored := true }))
    ∧ (∀ e, told (.loss e) (offerAnchorReads st
        (endDegradations st e (d.withStream st fun x => { x with invalidation := .none }))))
    ∧ told .check { d with check := { d.check with
        results := d.check.results.set st .invalidated, stages := d.check.stages.set st .none } })
  ∧ (∀ (st : StreamNo) (n : Nat) (d : Device), let x := d.streams.get st
    (∀ h, x.history.getLast? = some h →
      (h.notify = true → reportEntered st n d = pushReport { kind := .segmentEntered, stream := st.1
                                                             epoch := x.epoch.getD 0, sequence := h.first
                                                             address := h.descriptor, first := h.count, second := n } d)
      ∧ (h.notify = false → reportEntered st n d = d))
    ∧ ∀ c, x.current = some c →
      let fetched (link : Nat) : Device := offer ⟨.descriptor st, lineOf link, false, 0, 0⟩
        { d with streams := d.streams.set st { x with
          next := .fetching link, extensionLink := if c.contents.last = true then none else x.extensionLink } }
      (c.contents.last = false → fetchFollowing st d = fetched c.contents.link)
      ∧ (∀ l, c.contents.last = true → x.extensionLink = some l → fetchFollowing st d = fetched l)
      ∧ (c.contents.last = true → x.extensionLink = none → fetchFollowing st d = d))
  ∧ (∀ (st : StreamNo) (e : Nat) (d : Device),
    let degraded := (List.finRange 16).filter fun r =>
      (d.regions.get r).stream == some st && (d.regions.get r).degrading
    endDegradations st e d = degraded.foldl changeAfterDegradation (degraded.foldl (fun d r =>
      let g := d.regions.get r
      pushReport { kind := .regionDegraded, region := r.1, stream := st.1, address := g.base, epoch := e,
                   first := g.requested.code }
        { d with regions := d.regions.set r { g with effective := .pass, degrading := false } }) d)
    ∧ ∀ r, let g := d.regions.get r
      let passing : Device := { d with regions := d.regions.set r { g with change := .none } }
      ((g.change = .none ∨ g.requested ≠ .pass) → changeAfterDegradation d r = testChange r d)
      ∧ (∀ tag, g.change = .tagged tag → g.requested = .pass → changeAfterDegradation d r = pushReport
        { kind := .modeReached, tag := tag, region := r.1, stream := streamByte g.stream, address := g.base,
          first := 1, second := 1 } passing)
      ∧ (g.change = .internal → g.requested = .pass → changeAfterDegradation d r = passing))
  ∧ (∀ (st : StreamNo) (d : Device),
    resumeRegions st d = ((List.finRange 16).filter fun r =>
      (d.regions.get r).stream == some st && (d.regions.get r).resume.isSome).foldl resumeRegion d
    ∧ ∀ r m, let g := d.regions.get r
      g.resume = some m →
      let superseded : Device := match g.change with
        | .tagged t => pushReport { kind := .modeSuperseded, tag := t, region := r.1, stream := streamByte g.stream,
                                    address := g.base, first := g.requested.code, second := 65536 } d
        | _ => d
      (m = g.effective → resumeRegion d r = { superseded with
        regions := d.regions.set r { g with resume := none, requested := m, change := .none } })
      ∧ (m ≠ g.effective → resumeRegion d r = testChange r { superseded with
        regions := d.regions.set r { g with resume := none, requested := m, change := .internal } }))
  ∧ ∀ (st : StreamNo) (d : Device) (x : Stream), d.streams.get st = x → x.invalidation = .none →
    (x.attach = none → offerAnchorReads st d = d)
    ∧ ∀ a, x.attach = some a →
      ((a.readsOffered = true ∨ a.failed = true) → offerAnchorReads st d = d)
      ∧ (a.readsOffered = false → a.failed = false → offerAnchorReads st d = offerAll
        ([Copy.a, Copy.b].flatMap fun c => (List.finRange 16).map fun i =>
          ⟨.anchorRead st c i, x.anchorAddress + (if c = .a then 0 else 1024) + 64 * i.1, false, 0, 0⟩)
        { d with streams := d.streams.set st { x with attach := some { a with readsOffered := true } } })

/-- A line of an anchor copy arrives: it is kept until both copies are in (R128). With both in, a FRESH whose first descriptor has
arrived is made fresh, with the stamp above that of the newest valid copy, and offers its first anchor write (R129); a RESUME
that finds no valid copy, or one flagged INVALIDATED, ends; one whose contents pass their test loads them and fetches the newest
history entry's descriptor (R132). All this is so during a device check's handling too (logs 45, 48). An ERROR ends the ATTACH
with ANCHOR_READ, contents that fail their test end it with ANCHOR_CONTENT, and during the handling both failures are dropped
(R77, R131, R137, R163). A failure that is dropped withdraws the requests of its ATTACH or has their answers discarded, and the
ATTACH offers nothing more; of the anchor writes only those of the stream's earlier life and the Check Unit's are left, with one of
the ATTACH that the Check Unit awaits, which serves the ATTACH no longer; nothing else of the stream changes, and a stream that is
neither OPENING nor RESUMING stays as it is (R77, R163, R167, log 63). An ATTACH that ends without its stream answers its tag with the status; its requests are withdrawn or their
answers discarded, an invalidation of the stream's earlier life and the Check Unit's left alone (R167); its regions lose their resume modes and its claim
leaves the list; and of its context only anchor address, stamp, generation, newest copy, policy, stall limit and invalidation are
kept (R83, R131, R132, R137).
Readings of the model: logs 14, 45, 48, 54, 63, 67. -/
def Obligations.AnchorReadAnswered : Prop :=
  (∀ (s : State) (t : MemTag) (r : PortRequest) (st : StreamNo) (c : Copy) (i : Fin 16) (x : Stream) (a : Attach),
     Outstanding s.dev t r → r.job = .anchorRead st c i → r.write = false → s.dev.streams.get st = x →
     x.attach = some a →
     let d := returned t r s.dev
     let copyAt : Nat := if c = .a then x.anchorAddress else x.anchorAddress + 1024
     let answered (m : MemAnswer) (e : Device) : Prop := exec (.anchorReadAnswer t m) s = .next { s with dev := finish e }
     (∀ l,
       let a' : Attach := if c = .a then { a with copyA := a.copyA.set i (some l) }
         else { a with copyB := a.copyB.set i (some l) }
       let kept (f : Attach) : Device := { d with streams := d.streams.set st { x with attach := some f } }
       let judged : Device := kept { a' with judged := true }
       (bothCopies a' = none → answered (.data l) (kept a'))
       ∧ (∀ p q, bothCopies a' = some (p, q) → a.fresh = true →
         let seen : Stream := { x with attach := some { a' with judged := true } }
         (a.first = none → answered (.data l) judged)
         ∧ (∀ c, a.first = some c → x.current = none →
           let fresh : Stream := { seen.freshen (newestValid p q) a.firstAddress c with
             anchorWaiting := joined .attachFirst x.anchorWaiting }
           answered (.data l) { d with streams := d.streams.set st fresh }))
       ∧ ∀ p q, bothCopies a' = some (p, q) → a.fresh = false →
         let seen : Stream := { x with attach := some { a' with judged := true } }
         (newestValid p q = none → answered (.data l) (endAttach st .anchorInvalid 0 0 x.anchorAddress judged))
         ∧ (∀ n k, newestValid p q = some (n, k) → (copyContents k).invalidated = true →
           answered (.data l) (endAttach st .anchorInvalidated 0 0 (copyAddress x.anchorAddress n) judged))
         ∧ (∀ n k, newestValid p q = some (n, k) → (copyContents k).invalidated = false →
           (copyContentsPass k = false → s.dev.check.state = .normal → x.state = .resuming →
             answered (.data l) (endAttach st .failed 10 0 (copyAddress x.anchorAddress n) judged))
           ∧ (copyContentsPass k = false → s.dev.check.state ≠ .normal → answered (.data l) (dropFault st judged))
           ∧ (∀ h, copyContentsPass k = true → (copyContents k).history.getLast? = some h →
             answered (.data l) (offer ⟨.resumeDescriptor st, lineOf h.descriptor, false, 0, 0⟩
               { d with streams := d.streams.set st (seen.load n k) }))))
     ∧ (s.dev.check.state = .normal → (x.state = .opening ∨ x.state = .resuming) →
       answered .error (endAttach st .failed 9 0 copyAt d))
     ∧ (s.dev.check.state ≠ .normal → answered .error (dropFault st d)))
  ∧ (∀ (x : Stream) (n : Copy) (k : BitVec 8192) (address : Nat) (c : Descriptor), let g := copyContents k
      let entered : Stream :=
        { x with current := some ⟨address, c, 0⟩, history := [⟨address, c.base, c.count, 1, c.notify⟩], marks := [] }
      x.freshen none address c = { entered with stamp := 1, generation := 0, newest := .b }
      ∧ x.freshen (some (n, k)) address c = { entered with
        stamp := if g.stamp.toNat = 4294967295 then 1 else g.stamp + 1, generation := copyGeneration k, newest := n }
      ∧ x.load n k = { x with
        stamp := g.stamp, generation := copyGeneration k, newest := n, policy := g.policy, stallLimit := g.stallLimit
        epoch := some g.epoch, marks := g.marks, history := g.history
        nextSequence := some g.nextSequence, committed := some (g.nextSequence - 1)
        attach := x.attach.map fun a => { a with
          target := if g.rollbackPending = true then some g.target else none
          targetSequence := if g.rollbackPending = true then
              (g.marks.find? fun m => m.epoch == g.target).map fun m => m.sequence
            else none } })
  ∧ (∀ k : BitVec 8192, let g := copyContents k
      copyContentsPass k = true ↔ bytesAt k 0x14 1 ≤ 8 ∧ 1 ≤ bytesAt k 0x15 1 ∧ bytesAt k 0x15 1 ≤ 16
        ∧ g.marks.Pairwise (fun m n => m.epoch < n.epoch ∧ m.sequence < n.sequence)
        ∧ g.history.Pairwise (fun h i => h.first < i.first)
        ∧ (∀ h m, g.history.head? = some h → m ∈ g.marks → h.first ≤ m.sequence ∧ m.sequence < g.nextSequence)
        ∧ (∀ h, g.history.getLast? = some h → h.first ≤ g.nextSequence)
        ∧ (g.rollbackPending = true → ∃ m ∈ g.marks, m.epoch = g.target))
  ∧ ∀ (st : StreamNo) (d : Device),
      let x := d.streams.get st
      let keeps : Prop := x.invalidation ≠ .none ∨ d.check.stages.get st ≠ .none
      let reads (j : Job) : Bool := match j with
        | .anchorRead s _ _ | .firstDescriptor s | .resumeDescriptor s | .scanRead s _ _ | .descriptor s
        | .markRecord s _ => s == st
        | _ => false
      let writes (j : Job) : Bool := match j with
        | .anchorWrite s _ => s == st
        | _ => false
      let dropped : Device := if keeps then abandon reads d else abandon writes (abandon reads d)
      (∀ (status : Status) (second sequence address : Nat) (o : Operation),
        x.operation = some o → endAttach st status second sequence address d = commandDone
          { kind := .commandDone, tag := o.tag, status := status, stream := st.1, sequence := sequence, address := address,
            second := second }
          { dropped with
            streams := d.streams.set st { Stream.cold with
              anchorAddress := x.anchorAddress, stamp := x.stamp, generation := x.generation, newest := x.newest
              policy := x.policy, stallLimit := x.stallLimit, invalidation := x.invalidation
              anchorWaiting := if keeps then x.anchorWaiting else none
              anchorOutstanding := if keeps then x.anchorOutstanding else none }
            regions := d.regions.map fun e => if e.stream = some st then { e with resume := none } else e
            engine := { d.engine with claims := d.engine.claims.filter (· != st) } })
      ∧ ((x.state = .opening ∨ x.state = .resuming) → dropFault st d = { dropped with
          streams := d.streams.set st { x with
            anchorWaiting := if keeps then x.anchorWaiting.filter fun w => w.frozen.isSome else none
            anchorOutstanding := if keeps then x.anchorOutstanding.map fun w => { w with
              occasions := w.occasions.filter fun o => !(o == .attachFirst || o == .attachSecond || o == .resume) } else none
            attach := x.attach.map fun a => { a with failed := true } } })
      ∧ (x.state ≠ .opening → x.state ≠ .resuming → dropFault st d = d)

/-- The newest history entry's descriptor starts the forward scan; one that fails its tests ends the ATTACH (R132, R137).
A line of a scanned record arrives and is kept with its record; the scan goes on. An ERROR ends the ATTACH with
JOURNAL_READ (R133, R137). While a device check is handled these failures are dropped (R77, R137, R163; `dropFault`, which
`Obligations.AnchorReadAnswered` spells out). The scan reads up to 8 records ahead within the segment while no device check is
handled (R84, R133), and judges them in turn: a record is accepted when its check code is right, its stamp is the loaded one, its
sequence is the expected one, and it is a BEFORE_IMAGE or the MARK of the next epoch, which joins the table, a full one
first losing its oldest with cause CAPACITY. At the first not accepted, or at the segment's end, the scan ends (R133), during a
device check's handling too where it needs no read (log 47): with
epoch 0 the ATTACH ends ANCHOR_INVALID; else the stamp rises, and a loaded rollback target has its regions held and the
engine claimed, or segments are freed and the resume anchor is offered (R103, R134, R135, R136).
Readings of the model: logs 14, 38, 47, 63. -/
def Obligations.ScanProceeds : Prop :=
  (∀ (s : State) (t : MemTag) (r : PortRequest) (st : StreamNo) (x : Stream) (h : Segment) (next : Nat),
     Outstanding s.dev t r → r.job = .resumeDescriptor st → r.write = false → s.dev.streams.get st = x →
     x.state = .resuming → s.dev.check.state = .normal → x.history.getLast? = some h → x.nextSequence = some next →
     let d := returned t r s.dev
     (∀ l,
       let c := parseDescriptor l h.descriptor
       exec (.resumeDescriptorAnswer t (.data l)) s = .next { s with dev := finish (
         if c.valid s.dev.winsel = true ∧ c.base = h.base ∧ c.count = h.count then
           if h.count < next - h.first then
             endAttach st .failed 10 0 (copyAddress x.anchorAddress x.newest) d
           else scanOn st { d with streams := d.streams.set st { x with
             current := some ⟨h.descriptor, c, next - h.first⟩
             attach := x.attach.map fun a => { a with scan := some ⟨next, next, [], 0, 0⟩ } } }
         else endAttach st .failed 6 0 h.descriptor d) })
     ∧ exec (.resumeDescriptorAnswer t .error) s = .next { s with dev := finish (endAttach st .failed 5 0 h.descriptor d) })
  ∧ (∀ (s : State) (t : MemTag) (r : PortRequest) (st : StreamNo) (h : Segment), Outstanding s.dev t r →
     r.job = .resumeDescriptor st → r.write = false → s.dev.check.state ≠ .normal →
     (s.dev.streams.get st).history.getLast? = some h →
     let d := returned t r s.dev
     exec (.resumeDescriptorAnswer t .error) s = .next { s with dev := finish (dropFault st d) }
     ∧ ∀ l, let c := parseDescriptor l h.descriptor
       (c.valid s.dev.winsel = false ∨ c.base ≠ h.base ∨ c.count ≠ h.count
         ∨ h.count < (s.dev.streams.get st).nextSequence.getD 0 - h.first) →
       exec (.resumeDescriptorAnswer t (.data l)) s = .next { s with dev := finish (dropFault st d) })
  ∧ (∀ (s : State) (t : MemTag) (r : PortRequest) (st : StreamNo) (n : Nat) (image : Bool) (x : Stream) (a : Attach)
       (c : Scan), Outstanding s.dev t r → r.job = .scanRead st n image → r.write = false → s.dev.streams.get st = x →
       x.attach = some a → a.scan = some c →
       let d := returned t r s.dev
       (∀ l, exec (.scanReadAnswer t (.data l)) s = .next { s with dev := finish (scanOn st { d with
         streams := d.streams.set st { x with attach := some { a with scan := some { c with
           window := c.window.map fun w =>
             if w.sequence = n then (if image = true then { w with image := some l } else { w with header := some l })
             else w } } } }) })
       ∧ (x.state = .resuming → s.dev.check.state = .normal → exec (.scanReadAnswer t .error) s =
         .next { s with dev := finish (endAttach st .failed 11 n (recordAddress x n) d) })
       ∧ (s.dev.check.state ≠ .normal → exec (.scanReadAnswer t .error) s =
         .next { s with dev := finish (dropFault st d) }))
  ∧ (∀ (x : Stream) (expected : Nat) (header image : Line), scanAccepts x expected header image = true ↔
      recordChecks header image = true ∧ headerStamp header = x.stamp.toNat ∧ headerSequence header = expected
      ∧ (headerKind header = 1 ∨ (headerKind header = 2 ∧ headerEpoch header = x.epoch.getD 0 + 1)))
  ∧ (∀ (st : StreamNo) (n : Nat) (d : Device) (x : Stream) (a : Attach) (c : Scan) (h : Segment) (cur : CurrentSegment),
      d.streams.get st = x → x.attach = some a → a.scan = some c → x.history.getLast? = some h → x.current = some cur →
      let scanning (c : Scan) : Device := { d with streams := d.streams.set st { x with attach := some { a with scan := some c } } }
      scanOn st d = judgeScan 10 st (refillScan 8 st d)
      ∧ refillScan 0 st d = d ∧ judgeScan 0 st d = d
      ∧ (c.window.length < 8 → c.nextUnread - h.first < cur.contents.count → d.check.state = .normal →
        let address := recordAddress x c.nextUnread
        refillScan (n + 1) st d = refillScan n st (offerAll
          [⟨.scanRead st c.nextUnread false, address, false, 0, 0⟩, ⟨.scanRead st c.nextUnread true, address + 64, false, 0, 0⟩]
          (scanning { c with
            window := c.window ++ [⟨c.nextUnread, address, none, none⟩], nextUnread := c.nextUnread + 1 })))
      ∧ ((8 ≤ c.window.length ∨ cur.contents.count ≤ c.nextUnread - h.first ∨ d.check.state ≠ .normal) →
        refillScan (n + 1) st d = d)
      ∧ (cur.contents.count ≤ c.expected - h.first → judgeScan (n + 1) st d = endScan st c.expected d)
      ∧ (c.expected - h.first < cur.contents.count →
        (c.window = [] → judgeScan (n + 1) st d = d)
        ∧ ∀ w rest, c.window = w :: rest →
          ((w.header = none ∨ w.image = none) → judgeScan (n + 1) st d = d)
          ∧ ∀ header image, w.header = some header → w.image = some image →
            (scanAccepts x c.expected header image = false → judgeScan (n + 1) st d = endScan st c.expected d)
            ∧ (scanAccepts x c.expected header image = true →
              judgeScan (n + 1) st d = judgeScan n st (refillScan 8 st (acceptRecord st header c.expected d))))
      ∧ ∀ header : Line,
        let passed : Scan :=
          { c with expected := c.expected + 1, accepted := c.accepted + 1, window := c.window.drop 1 }
        let marked (older : List MarkEntry) (d : Device) : Device := { d with
          streams := d.streams.set st { x with
            marks := older ++ [⟨headerEpoch header, BitVec.ofNat 32 (headerLabel header), c.expected⟩]
            epoch := some (headerEpoch header)
            attach := some { a with scan := some { passed with marks := c.marks + 1 } } } }
        (headerKind header ≠ 2 → acceptRecord st header c.expected d = scanning passed)
        ∧ (headerKind header = 2 → x.marks.length < 8 → acceptRecord st header c.expected d = marked x.marks d)
        ∧ ∀ o rest, headerKind header = 2 → x.marks = o :: rest → 7 ≤ rest.length →
          acceptRecord st header c.expected d = marked rest (pushReport
            { kind := .markRetired, stream := st.1, epoch := o.epoch, label := o.label.toNat, sequence := o.sequence,
              first := 1, second := rest.length } d))
  ∧ ∀ (st : StreamNo) (expected : Nat) (d : Device) (x : Stream) (a : Attach) (c : Scan) (h : Segment),
      d.streams.get st = x → x.attach = some a → a.scan = some c → x.history.getLast? = some h →
      let ended : Stream := { x with
        committed := some (expected - 1), nextSequence := some expected, acknowledged := []
        current := x.current.map fun g => { g with index := expected - h.first }
        attach := some { a with scan := some { c with window := [] } } }
      let stamped : Stream := { ended with stamp := if x.stamp.toNat = 4294967295 then 1 else x.stamp + 1 }
      let left (y : Stream) : Device := (abandon (fun j => match j with
        | .scanRead s _ _ => s == st
        | _ => false) d).withStream st fun _ => y
      (x.epoch = some 0 →
        endScan st expected d = endAttach st .anchorInvalid 0 0 (copyAddress x.anchorAddress x.newest) (left ended))
      ∧ (x.epoch ≠ some 0 → a.target = none → endScan st expected d = left { stamped.freeSegments with
        anchorWaiting := joined .resume x.anchorWaiting })
      ∧ (∀ e, x.epoch ≠ some 0 → a.target = some e →
        let held := holdRegions st (left { stamped with resumedTarget := some e })
        let claiming : Device := { held with engine := { held.engine with claims := held.engine.claims ++ [st] } }
        endScan st expected d = (tryEngineClaimHandoff claiming).getD claiming)

/-! ## Detach and rollback -/

/-- DETACH is judged by its checks in order. An ACTIVE or EXHAUSTED stream becomes DETACHING, its timer stops, and the
Capture Unit lets go of its waiting writes; a lost stream is DETACHED at once (R81, R83). What the Capture Unit does: the
stream's filter entries go; its writes leave the slot queue, and those in WAIT_SLOT are answered RETRY with their lines released;
its slots without a sequence are cancelled (R45, R56, R81; `Obligations.CaptureProceeds`). The final anchor is offered when every
condition of R82 holds.
Readings of the model: logs 19, 42. -/
def Obligations.DetachProceeds : Prop :=
  (∀ (s : State) (h : CmdHead), Taking s.dev →
    let d := chained h s.dev
    let answered (status : Status) (d : Device) := exec (.detach h) s = .next { s with dev := finish (commandDone
      { kind := .commandDone, tag := h.tag, status := status, stream := h.target.toNat } d) }
    (4 ≤ h.target.toNat → answered .badArgument d)
    ∧ ∀ st : StreamNo, h.target.toNat = st.1 →
      let x := s.dev.streams.get st
      let journaled : Prop := ∃ r, (s.dev.regions.get r).stream = some st
        ∧ ((s.dev.regions.get r).requested = .journal ∨ (s.dev.regions.get r).effective = .journal)
      (¬ Unoccupied x → answered .streamBusy d)
      ∧ (Unoccupied x → (x.state = .detached ∨ x.state = .opening ∨ x.state = .detaching) → answered .streamState d)
      ∧ (Unoccupied x → (x.state = .active ∨ x.state = .exhausted) →
        (journaled → answered .streamState d)
        ∧ (¬ journaled → exec (.detach h) s = .next { s with dev := finish (detachCaptures st
          { d with streams := d.streams.set st { x with
            operation := some ⟨.detach, h.tag, 0, 0, 0, 0, 0⟩, state := .detaching, stallStart := none } }) }))
      ∧ (Unoccupied x → (x.state = .broken ∨ x.state = .faulted) →
        answered .ok { d with streams := d.streams.set st { Stream.cold with
          anchorAddress := x.anchorAddress, stamp := x.stamp, generation := x.generation, newest := x.newest
          policy := x.policy, stallLimit := x.stallLimit, invalidation := x.invalidation
          anchorWaiting := x.anchorWaiting, anchorOutstanding := x.anchorOutstanding } }))
  ∧ (∀ (d : Device) (st : StreamNo),
    let theirs (t : ReqTag) : Bool := match d.path.requests.get t with
      | some q => q.stream == some st
      | none => true
    let waiting : List ReqTag := (List.finRange 64).filter fun t => match d.path.requests.get t with
      | some q => q.stream == some st && q.state == .waitSlot
      | none => false
    let cleared : Device := removeEntries (fun f => (d.regions.get f.region).stream == some st) d
    let answered : Device := waiting.foldl
      (fun e t => match d.path.requests.get t with
        | some q => respond t .retry (releaseLine q.line e)
        | none => e)
      { cleared with capture := { cleared.capture with queue := d.capture.queue.filter fun t => !theirs t } }
    detachCaptures st d = ((List.finRange 16).filter fun k => match d.capture.slots.get k with
      | some c => c.stream == st && (c.phase == .reading || c.phase == .waitingPosition)
      | none => false).foldl (fun e k => cancelSlot k e) answered)
  ∧ ∀ (s : State) (st : StreamNo) (x : Stream) (c : Nat), s.dev.streams.get st = x → x.state = .detaching →
    (∀ k y, s.dev.capture.slots.get k = some y → y.stream ≠ st) → x.committed = some c → x.nextSequence = some (c + 1) →
    x.entering = false → (∀ a, x.next ≠ .fetching a) → x.extension = none → x.anchorWaiting = none →
    x.anchorOutstanding = none → s.dev.check.state = .normal →
    exec (.detachFinalAnchor st) s = .next { s with dev := finish { s.dev with
      streams := s.dev.streams.set st { x with anchorWaiting := some ⟨[.detach], none⟩ } } }

/-- ROLLBACK is judged by its checks in order; taken, the engine serves the stream in HOLDING, the stream becomes
ROLLING_BACK with its timer stopped, its regions are held, and of an EXHAUSTED stream the slots that wait for a position
are cancelled (R56, R104, R105; `Obligations.CaptureProceeds`), in ascending region and slot number (logs 38, 42). A held region asks for HOLD by an
internal change, and its resume mode is what it asked for before (R13).
Readings of the model: logs 38, 42. -/
def Obligations.RollbackTaken : Prop :=
  (∀ (s : State) (h : CmdHead) (epoch : BitVec 32), Taking s.dev →
    let d := chained h s.dev
    let refused (status : Status) := exec (.rollback h epoch) s = .next { s with dev := finish (commandDone
      { kind := .commandDone, tag := h.tag, status := status, stream := h.target.toNat, epoch := epoch.toNat } d) }
    ((4 ≤ h.target.toNat ∨ epoch = 0) → refused .badArgument)
    ∧ (epoch ≠ 0 → ∀ st : StreamNo, h.target.toNat = st.1 → let x := s.dev.streams.get st
      (¬ Unoccupied x → refused .streamBusy)
      ∧ (Unoccupied x → x.state ≠ .active → x.state ≠ .exhausted → refused .streamState)
      ∧ (Unoccupied x → (x.state = .active ∨ x.state = .exhausted) →
        (s.dev.engine.phase ≠ .idle → refused .engineBusy)
        ∧ (s.dev.engine.phase = .idle → (∀ m ∈ x.marks, m.epoch ≠ epoch.toNat) → refused .noSuchMark)
        ∧ (s.dev.engine.phase = .idle → ∀ older m rest, x.marks = older ++ m :: rest → m.epoch = epoch.toNat →
          (∀ o ∈ older, o.epoch ≠ epoch.toNat) →
          let held : Device := holdRegions st { d with
            engine := {
              phase := .holding, owner := some st, origin := .command, tag := h.tag, targetEpoch := some m.epoch,
              targetSequence := some m.sequence, walkTop := none, readPointer := none, applyPointer := none, window := [],
              restores := 0, applied := 0, skipped := 0, targetOffered := false, targetMet := false
              claims := d.engine.claims }
            streams := d.streams.set st { x with
              operation := some ⟨.rollback, h.tag, m.epoch, m.label, m.sequence, 0, 0⟩
              state := .rollingBack, stallStart := none } }
          exec (.rollback h epoch) s = .next { s with dev := finish (
            if x.state = .exhausted then cancelWaitingSlots st held else held) }))))
  ∧ (∀ (d : Device) (st : StreamNo),
    holdRegions st d = ((List.finRange 16).filter fun r => (d.regions.get r).stream == some st).foldl holdRegion d
    ∧ cancelWaitingSlots st d = ((List.finRange 16).filter fun k => match d.capture.slots.get k with
      | some c => c.stream == st && c.phase == .waitingPosition
      | none => false).foldl (fun e k => cancelSlot k e) d)
  ∧ ∀ (d : Device) (r : RegionNo), let e := d.regions.get r
    let superseded : Device := match e.change with
      | .tagged t => pushReport { kind := .modeSuperseded, tag := t, region := r.1, stream := streamByte e.stream,
                                  address := e.base, first := e.requested.code, second := 65536 } d
      | _ => d
    (e.requested = .off → e.effective = .off → holdRegion d r = d)
    ∧ (e.effective = .hold → holdRegion d r = { superseded with
      regions := d.regions.set r { e with resume := some e.requested, requested := .hold, change := .none } })
    ∧ ((e.requested ≠ .off ∨ e.effective ≠ .off) → e.effective ≠ .hold → holdRegion d r = testChange r
      { superseded with
        regions := d.regions.set r { e with resume := some e.requested, requested := .hold, change := .internal } })

/-- The engine's phases: a free engine passes to the oldest claim, with the target that the stream's anchor was loaded with
(R103, R118); HOLDING ends for a ROLLBACK with the
pending anchor offered and the walk's bounds taken (R107, R108), and for a resumed rollback with the walk (R118).
Readings of the model: logs 18, 19. -/
def Obligations.RollbackPhases : Prop :=
  (∀ (s : State) (st : StreamNo) (rest : List StreamNo) (x : Stream) (o : Operation) (a : Attach),
    s.dev.engine.phase = .idle → s.dev.engine.claims = st :: rest → s.dev.streams.get st = x → x.operation = some o →
    x.attach = some a →
    exec .engineClaimHandoff s = .next { s with dev := finish { s.dev with
      engine := {
        phase := .holding, owner := some st, origin := .resume, tag := o.tag, targetEpoch := x.resumedTarget,
        targetSequence := a.targetSequence, walkTop := x.committed, readPointer := x.committed,
        applyPointer := x.committed, window := [], restores := 0, applied := 0, skipped := 0, targetOffered := false
        targetMet := false, claims := rest }
      streams := s.dev.streams.set st { x with state := .rollingBack } } })
  ∧ (∀ (s : State) (st : StreamNo) (x : Stream) (e c : Nat), s.dev.engine.phase = .holding →
    s.dev.engine.origin = .command → s.dev.engine.owner = some st → s.dev.engine.targetEpoch = some e →
    s.dev.streams.get st = x →
    (∀ r, (s.dev.regions.get r).stream = some st → (s.dev.regions.get r).resume ≠ none →
      (s.dev.regions.get r).effective = .hold ∧ (s.dev.regions.get r).change = .none) →
    (∀ k y, s.dev.capture.slots.get k = some y → y.stream = st → y.phase ≠ .reading ∧ y.phase ≠ .waitingPosition) →
    x.committed = some c → x.nextSequence = some (c + 1) → x.entering = false → x.extension = none →
    x.anchorWaiting = none → x.anchorOutstanding = none → s.dev.check.state = .normal →
    exec .holdingEnd s = .next { s with dev := finish { s.dev with
      engine := { s.dev.engine with
        phase := .pendingAnchor, walkTop := some c, readPointer := some c, applyPointer := some c }
      streams := s.dev.streams.set st { x with anchorWaiting := some ⟨[.pending e], none⟩ } } })
  ∧ ∀ (s : State) (st : StreamNo), s.dev.engine.phase = .holding → s.dev.engine.origin = .resume →
    s.dev.engine.owner = some st →
    (∀ r, (s.dev.regions.get r).stream = some st → (s.dev.regions.get r).resume ≠ none →
      (s.dev.regions.get r).effective = .hold ∧ (s.dev.regions.get r).change = .none) →
    s.dev.check.state = .normal →
    exec .resumedHoldingEnd s = .next { s with dev := finish (
      refillWindow 8 st { s.dev with engine := { s.dev.engine with phase := .restoring } }) }

/-- Why a record is not valid for the walk: the first of the three tests to fail gives the cause (R110). A journal read's
line is kept with its record, and the walk goes on from the record at the apply pointer: a valid BEFORE_IMAGE is written
back whole while fewer than 8 restore writes are outstanding, a newer MARK is skipped, the target MARK ends the walk once no
restore write is outstanding; an invalid record or an ERROR loses the stream (R109 to R112, R116). Up to 8 records are read
ahead, down to the target (R109). A record's address is the base of the history entry that holds its sequence, the newest that begins
at or below it, plus 128 bytes for each sequence from that entry's first (R109), and 0 where none holds it (log 44). The target's
record is the last one offered, and the read pointer stays at it (R109, log 73); a walk to a target sequence of 0 leaves the apply
pointer at 0 (log 65). A restore write goes to the line
address of its record as it stands (R111, log 66). While a device check is handled, and for a free engine, the answers are discarded
(R117, R163). A restore write answered DONE lowers the
count and the walk goes on, or ends with truncation at the last one; an ERROR loses the stream (R111, R112, R116).
Readings of the model: logs 14, 44, 63, 65, 66, 73. -/
def Obligations.WalkProceeds : Prop :=
  (∀ (header image : Line) (pointer m e : Nat), m ≤ pointer →
     recordFault header image pointer m e =
       if bytesAt header 0x1C 4 ≠ recordCheckCode header image then some .recordCheck
       else if headerSequence header ≠ pointer then some .recordSequence
       else if (m < pointer ∧ (headerKind header = 1 ∨ (headerKind header = 2 ∧ e < headerEpoch header)))
           ∨ (pointer = m ∧ headerKind header = 2 ∧ headerEpoch header = e) then none
       else some .recordContent)
  ∧ (∀ (x : Stream) (n : Nat),
      (∀ older h newer, x.history = older ++ h :: newer → h.first ≤ n → (∀ g ∈ newer, n < g.first) →
        recordAddress x n = h.base + 128 * (n - h.first))
      ∧ ((∀ h ∈ x.history, n < h.first) → recordAddress x n = 0))
  ∧ (∀ (s : State) (t : MemTag) (r : PortRequest) (n : Nat) (a : MemAnswer), Outstanding s.dev t r →
      (s.dev.check.state ≠ .normal ∨ s.dev.engine.owner = none) → let d := returned t r s.dev
      (∀ image, r.job = .journalRead n image → r.write = false → a ≠ .done →
        exec (.journalReadAnswer t a) s = .next { s with dev := finish d })
      ∧ (r.job = .restore n → r.write = true → (∀ l, a ≠ .data l) →
        exec (.restoreWriteAnswer t a) s = .next { s with dev := finish d }))
  ∧ (∀ (s : State) (t : MemTag) (r : PortRequest) (st : StreamNo) (n : Nat) (image : Bool) (x : Stream),
       Outstanding s.dev t r → r.job = .journalRead n image → r.write = false → s.dev.engine.owner = some st →
       s.dev.check.state = .normal → s.dev.streams.get st = x → x.state = .rollingBack →
       let d := returned t r s.dev
       (∀ l, exec (.journalReadAnswer t (.data l)) s = .next { s with dev := finish (walk st { d with
         engine := { d.engine with window := d.engine.window.map fun w =>
           if w.sequence = n then (if image = true then { w with image := some l } else { w with header := some l })
           else w } }) })
       ∧ exec (.journalReadAnswer t .error) s = .next { s with dev := finish (
         loseStream st .journalRead false n (recordAddress x n) (pushReport
           { kind := .check, status := .failed, stream := st.1, sequence := n, address := recordAddress x n, first := 11 } d)) }
       ∧ ∀ (y : Device) (h i : Line) (m : Nat),
         (headerKind h = 1 → y.engine.restores < 8 → processRecord h i n m y =
           some (popRecord (offer ⟨.restore n, headerLineAddress h, true, BitVec.allOnes 64, i⟩
             { y with engine := { y.engine with restores := y.engine.restores + 1, applied := y.engine.applied + 1 } })))
         ∧ (headerKind h = 1 → 8 ≤ y.engine.restores → processRecord h i n m y = none)
         ∧ (headerKind h ≠ 1 → n ≠ m → processRecord h i n m y =
           some (popRecord { y with engine := { y.engine with skipped := y.engine.skipped + 1 } }))
         ∧ (headerKind h ≠ 1 → n = m → processRecord h i n m y =
           some (popRecord { y with engine := { y.engine with targetMet := true } })))
  ∧ (∀ (d : Device) (st : StreamNo) (m e n : Nat), d.engine.targetSequence = some m → d.engine.targetEpoch = some e →
      walk st d = testWalkEnd st (processWindow 9 st d)
      ∧ testWalkEnd st d = (if d.engine.phase = .restoring ∧ d.engine.targetMet = true ∧ d.engine.restores = 0
        then truncate st m e d else d)
      ∧ refillWindow 0 st d = d ∧ processWindow 0 st d = d
      ∧ (d.engine.readPointer = none → refillWindow (n + 1) st d = d)
      ∧ (∀ p, d.engine.readPointer = some p →
        (d.engine.window.length < 8 → m ≤ p → d.engine.targetOffered = false → d.check.state = .normal →
          let address := recordAddress (d.streams.get st) p
          refillWindow (n + 1) st d = refillWindow n st (offerAll
            [⟨.journalRead p false, address, false, 0, 0⟩, ⟨.journalRead p true, address + 64, false, 0, 0⟩]
            { d with engine := { d.engine with
              window := d.engine.window ++ [⟨p, address, none, none⟩], readPointer := some (if p = m then m else p - 1)
              targetOffered := p == m } }))
        ∧ ((8 ≤ d.engine.window.length ∨ p < m ∨ d.engine.targetOffered = true ∨ d.check.state ≠ .normal) →
          refillWindow (n + 1) st d = d))
      ∧ (d.engine.window = [] → processWindow (n + 1) st d = d)
      ∧ ∀ w rest, d.engine.window = w :: rest →
        ((w.header = none ∨ w.image = none) → processWindow (n + 1) st d = d)
        ∧ ∀ header image, w.header = some header → w.image = some image →
          (∀ cause, recordFault header image w.sequence m e = some cause → d.check.state = .normal →
            (d.streams.get st).state = .rollingBack → processWindow (n + 1) st d =
              loseStream st cause false w.sequence w.address (pushReport
                { kind := .check, status := .failed, stream := st.1, sequence := w.sequence, address := w.address,
                  first := cause.code } d))
          ∧ (∀ cause, recordFault header image w.sequence m e = some cause → d.check.state ≠ .normal →
            processWindow (n + 1) st d = dropFault st d)
          ∧ (recordFault header image w.sequence m e = none →
            (processRecord header image w.sequence m d = none → processWindow (n + 1) st d = d)
            ∧ ∀ d', processRecord header image w.sequence m d = some d' →
              processWindow (n + 1) st d = processWindow n st (refillWindow 8 st d')))
  ∧ (∀ d : Device, popRecord d = { d with engine := { d.engine with
      window := d.engine.window.drop 1, applyPointer := d.engine.applyPointer.map (· - 1) } })
  ∧ ∀ (s : State) (t : MemTag) (r : PortRequest) (st : StreamNo) (n : Nat) (x : Stream),
      Outstanding s.dev t r → r.job = .restore n → r.write = true → s.dev.engine.owner = some st →
      s.dev.check.state = .normal → s.dev.streams.get st = x → x.state = .rollingBack →
      let d := returned t r s.dev
      let lowered : Device := { d with engine := { d.engine with restores := d.engine.restores - 1 } }
      exec (.restoreWriteAnswer t .done) s = .next { s with dev := finish (walk st lowered) }
      ∧ (∀ m e, s.dev.engine.window = [] → s.dev.engine.targetSequence = some m → s.dev.engine.targetEpoch = some e →
        s.dev.engine.phase = .restoring → s.dev.engine.targetMet = true →
        exec (.restoreWriteAnswer t .done) s = .next { s with dev := finish (
          if s.dev.engine.restores ≤ 1 then truncate st m e lowered else lowered) })
      ∧ exec (.restoreWriteAnswer t .error) s = .next { s with dev := finish (
        loseStream st .restoreWrite false n (recordAddress x n) (pushReport
          { kind := .check, status := .failed, stream := st.1, sequence := n, address := recordAddress x n, first := 15 } d)) }

/-- What truncation leaves: the sequences at the mark, the history up to it, the epoch table up to the target, the current
epoch at the target, the next stamp, no descriptor ahead, the stream's filter entries gone and its flag clear; the freed
list stays, and the operation keeps the number of marks removed (R113, Table 6-3). Where the target segment is the current
one its record index falls and the final anchor is offered; where it is an earlier one, the READ of its descriptor is offered
(R113, R115). The descriptor as re-read becomes the current segment, and the final anchor is offered; one that fails its tests
loses the stream (R114, R115). While a device check is handled the answer is discarded (R117, R163). Where no entry of the history
holds the mark, line 0 is read and the answer is ignored, the model's choice (log 64).
Readings of the model: log 64. -/
def Obligations.TruncationProceeds : Prop :=
  (∀ (st : StreamNo) (m e : Nat) (d : Device) (h : Segment),
     let x := d.streams.get st
     let kept := x.history.filter fun h => decide (h.first ≤ m)
     let cut : Stream := { x with
       nextSequence := some (m + 1), committed := some m, acknowledged := [], next := .absent, extensionLink := none
       history := kept, marks := x.marks.filter fun k => decide (k.epoch ≤ e), epoch := some e
       stamp := if x.stamp.toNat = 4294967295 then 1 else x.stamp + 1, saturated := false
       operation := x.operation.map fun o =>
         { o with retired := (x.marks.filter fun k => decide (e < k.epoch)).length } }
     let cleared : Device := removeEntries (fun f => (d.regions.get f.region).stream == some st)
       (abandon (fun j => j == .descriptor st) d)
     let left (p : Phase) (y : Stream) : Device := { cleared with
       engine := { d.engine with phase := p }, streams := d.streams.set st y }
     x.history.getLast? = some h →
       (h.first ≤ m → truncate st m e d = left .finalAnchor { cut with
         current := x.current.map fun c => { c with index := m + 1 - h.first }
         anchorWaiting := joined .final x.anchorWaiting })
       ∧ (m < h.first → truncate st m e d = offer
         ⟨.truncationDescriptor st, (kept.getLast?.map fun g => lineOf g.descriptor).getD 0, false, 0, 0⟩
         (left .truncating cut)))
  ∧ (∀ (s : State) (t : MemTag) (r : PortRequest) (st : StreamNo) (x : Stream) (h : Segment) (m : Nat),
      Outstanding s.dev t r → r.job = .truncationDescriptor st → r.write = false → s.dev.streams.get st = x →
      x.history.getLast? = some h → s.dev.check.state = .normal → x.state = .rollingBack →
      s.dev.engine.targetSequence = some m → x.anchorWaiting = none →
      let d := returned t r s.dev
      (∀ l,
        let c := parseDescriptor l h.descriptor
        exec (.truncationDescriptorAnswer t (.data l)) s = .next { s with dev := finish (
          if c.valid s.dev.winsel = true ∧ c.base = h.base ∧ c.count = h.count then { d with
            engine := { d.engine with phase := .finalAnchor }
            streams := d.streams.set st { x with
              current := some ⟨h.descriptor, c, m + 1 - h.first⟩
              anchorWaiting := some ⟨[.final], none⟩ } }
          else loseStream st .descriptorInvalid false 0 h.descriptor (pushReport
            { kind := .check, status := .failed, stream := st.1, address := h.descriptor, first := 6 } d)) })
      ∧ exec (.truncationDescriptorAnswer t .error) s = .next { s with dev := finish (
        loseStream st .descriptorFetch false 0 h.descriptor (pushReport
          { kind := .check, status := .failed, stream := st.1, address := h.descriptor, first := 5 } d)) })
  ∧ ∀ (s : State) (t : MemTag) (r : PortRequest) (st : StreamNo) (a : MemAnswer), Outstanding s.dev t r →
      r.job = .truncationDescriptor st → r.write = false → a ≠ .done →
      (s.dev.check.state ≠ .normal ∨ (s.dev.streams.get st).history = []) →
      exec (.truncationDescriptorAnswer t a) s = .next { s with dev := finish (returned t r s.dev) }

/-! ## The Command Unit -/

/-- A command fetch is issued when its five conditions hold, and not while the unit is paused or the chain waits; memory's
answer makes the record HELD, or unreadable (R139, R142). A held record is taken: discarded from an emptied ring;
otherwise the head advances, a head-line write is offered, and the record is executed, skipped, or answered FETCH_ERROR
when it is unreadable (R143, R144, R146).
Readings of the model: logs 11, 12, 13. -/
def Obligations.RecordsFetchedAndTaken : Prop :=
  ((∀ s : State, let c := s.dev.command
     (c.ringSet = true → c.head ≠ c.tail → c.fetch = .idle → s.dev.check.state = .normal → s.dev.report.queue.length < 16 →
       (∀ t, c.chain ≠ .waiting t) →
       (∀ t q n, s.dev.path.requests.get t = some q → q.write = true → q.admission = some n → s.dev.path.fence ≤ n) →
       exec .commandFetchIssue s = .next { s with dev := finish (offer ⟨.commandFetch, c.base + c.head * 64, false, 0, 0⟩
         { s.dev with command := { c with fetch := .fetching (c.base + c.head * 64) } }) })
     ∧ ((c.ringSet = false ∨ c.head = c.tail ∨ c.fetch ≠ .idle ∨ s.dev.check.state ≠ .normal
         ∨ 16 ≤ s.dev.report.queue.length ∨ (∃ t, c.chain = .waiting t)
         ∨ ∃ t q n, s.dev.path.requests.get t = some q ∧ q.write = true ∧ q.admission = some n ∧ n < s.dev.path.fence) →
       exec .commandFetchIssue s = .next { s with dev := finish s.dev }))
   ∧ ∀ (s : State) (t : MemTag) (r : PortRequest) (a : Nat), Outstanding s.dev t r → r.job = .commandFetch →
     r.write = false → s.dev.command.fetch = .fetching a →
     let d := returned t r s.dev
     (∀ l, exec (.commandFetchAnswer t (.data l)) s =
       .next { s with dev := finish { d with command := { d.command with fetch := .held l } } })
     ∧ exec (.commandFetchAnswer t .error) s =
       .next { s with dev := finish { d with command := { d.command with fetch := .unreadable } } })
  ∧ ∀ s : State, let c := s.dev.command
      let moved : Device := offerHeadLine { s.dev with command := { c with head := (c.head + 1) % 2 ^ c.exponent } }
      let taken (chain : ChainState) : Device :=
        { moved with command := { moved.command with fetch := .idle, chain := chain } }
      let still := exec .commandRecordTaken s = .next { s with dev := finish s.dev }
      (s.dev.check.state ≠ .normal ∨ 16 ≤ s.dev.report.queue.length ∨ (∃ t, c.chain = .waiting t) → still)
      ∧ ((c.fetch = .idle ∨ ∃ a, c.fetch = .fetching a) → still)
      ∧ (s.dev.check.state = .normal → s.dev.report.queue.length < 16 → (∀ t, c.chain ≠ .waiting t) →
        (c.head = c.tail → ((∃ r, c.fetch = .held r) ∨ c.fetch = .unreadable) → exec .commandRecordTaken s =
          .next { s with dev := finish { s.dev with command := { c with fetch := .idle } } })
        ∧ (c.head ≠ c.tail →
          (c.fetch = .unreadable → exec .commandRecordTaken s = .next { s with dev := finish (commandDone
            { kind := .commandDone, tag := 0xFFFF, status := .fetchError, address := c.base + c.head * 64, first := c.head }
            (taken .skipping)) })
          ∧ ∀ r, c.fetch = .held r → let h := recordHead r
            (c.chain ≠ .skipping → exec .commandRecordTaken s = .next { s with dev := finish (runRecord r
              (taken (if h.chain = true then .waiting h.tag else .none))) })
            ∧ (c.chain = .skipping → exec .commandRecordTaken s = .next { s with dev := finish (commandDone
              { kind := .commandDone, tag := h.tag, status := .skipped
                region := if 0x10 ≤ recordOpcode r ∧ recordOpcode r ≤ 0x12 then h.target.toNat else 0xFF
                stream := if 0x20 ≤ recordOpcode r ∧ recordOpcode r ≤ 0x26 then h.target.toNat else 0xFF }
              (taken (if h.chain = true then .skipping else .none))) })))

/-- A record executed from the ring does what its command's row does with the record's fields (R145, Table 11-2); an
opcode that names no command is answered BAD_OPCODE, an ATTACH of neither variant BAD_ARGUMENT.
Readings of the model: log 12. -/
def Obligations.RecordDecoded : Prop :=
  ∀ (s : State) (r : Line), Taking s.dev →
    let h := recordHead r
    let executed : Host.Outcome State Fault Refusal :=
      .next { s with dev := finish (runRecord r (chained h s.dev)) }
    let byte (o : Nat) : BitVec 8 := r.extractLsb' (8 * o) 8
    let word (o : Nat) : BitVec 32 := r.extractLsb' (8 * o) 32
    let quad (o : Nat) : BitVec 64 := r.extractLsb' (8 * o) 64
    (h.tag = r.extractLsb' 16 16 ∧ h.chain = r.getLsbD 8 ∧ h.target = byte 4)
    ∧ (byte 0 = 0x00 → executed = exec (.nop h) s)
    ∧ (byte 0 = 0x01 → executed = exec (.identify h) s)
    ∧ (byte 0 = 0x02 → executed = exec (.configure h (byte 8) (byte 9)) s)
    ∧ (byte 0 = 0x10 → executed = exec (.setRegion h (quad 8) (byte 0x10) (byte 0x11)) s)
    ∧ (byte 0 = 0x11 → executed = exec (.setMode h (byte 8)) s)
    ∧ (byte 0 = 0x12 → executed = exec (.queryRegion h) s)
    ∧ (byte 0 = 0x20 → byte 8 = 0 →
      executed = exec (.attachFresh h (byte 9) (byte 0xA) (word 0xC) (quad 0x10) (quad 0x18)) s)
    ∧ (byte 0 = 0x20 → byte 8 = 1 → executed = exec (.attachResume h (quad 0x10)) s)
    ∧ (byte 0 = 0x20 → byte 8 ≠ 0 → byte 8 ≠ 1 → executed = .next { s with dev := finish (commandDone
      { kind := .commandDone, tag := h.tag, status := .badArgument, stream := h.target.toNat } (chained h s.dev)) })
    ∧ (byte 0 = 0x21 → executed = exec (.detach h) s)
    ∧ (byte 0 = 0x22 → executed = exec (.extend h (quad 8)) s)
    ∧ (byte 0 = 0x23 → executed = exec (.mark h (word 8)) s)
    ∧ (byte 0 = 0x24 → executed = exec (.release h (word 8)) s)
    ∧ (byte 0 = 0x25 → executed = exec (.rollback h (word 8)) s)
    ∧ (byte 0 = 0x26 → executed = exec (.queryStream h (byte 8)) s)
    ∧ (byte 0 = 0x3F → executed = exec (.deviceClear ⟨h, none⟩) s)
    ∧ ((byte 0).toNat ∉ [0, 1, 2, 0x10, 0x11, 0x12, 0x20, 0x21, 0x22, 0x23, 0x24, 0x25, 0x26, 0x3F] →
      executed = .next { s with dev := finish (commandDone
        { kind := .commandDone, tag := h.tag, status := .badOpcode, first := (byte 0).toNat } (chained h s.dev)) })

/-- A record presented while the unit is paused or the chain waits is not taken; while the chain skips, it is answered
SKIPPED, and the first without CHAIN ends the skipping. A COMMAND_DONE for the waited tag ends the wait (R139, R146).
Readings of the model: logs 11, 12. -/
def Obligations.ChainRules : Prop :=
  (∀ (c : Instr) (h : CmdHead) (opcode : Nat) (s : State), presented c = some (h, opcode) →
    ((s.dev.check.state ≠ .normal ∨ 16 ≤ s.dev.report.queue.length ∨ ∃ t, s.dev.command.chain = .waiting t) →
      exec c s = .next { s with dev := finish s.dev })
    ∧ (s.dev.check.state = .normal → s.dev.report.queue.length < 16 → s.dev.command.chain = .skipping →
      exec c s = .next { s with dev := finish (commandDone
        { kind := .commandDone, tag := h.tag, status := .skipped
          region := if 0x10 ≤ opcode ∧ opcode ≤ 0x12 then h.target.toNat else 0xFF
          stream := if 0x20 ≤ opcode ∧ opcode ≤ 0x26 then h.target.toNat else 0xFF }
        { s.dev with command := { s.dev.command with chain := if h.chain = true then .skipping else .none } }) }))
  ∧ ∀ (r : Report) (d : Device), commandDone r d = { d with
      report := { d.report with queue := d.report.queue ++ [{ r with kind := .commandDone }] }
      command := { d.command with chain :=
        if d.command.chain = .waiting r.tag then (if r.status = .ok then .following else .skipping)
        else d.command.chain } }

/-- NOP answers OK and changes nothing else; IDENTIFY answers the values of Table 8-3 (R148). -/
def Obligations.NopAndIdentify : Prop :=
  ∀ (s : State) (h : CmdHead), Taking s.dev →
    exec (.nop h) s = .next { s with dev := finish (commandDone { kind := .commandDone, tag := h.tag, status := .ok }
      (chained h s.dev)) }
    ∧ exec (.identify h) s = .next { s with dev := finish (commandDone
      { kind := .commandDone, tag := h.tag, status := .ok, label := 0x55A34218, epoch := 0x02, sequence := 2048
        first := 0x08100410, second := 0x08304010 } (chained h s.dev)) }

/-- CONFIGURE sets both settings or neither, expires the requests that have waited longer than the new limit, and answers
the settings in force (R149). Several that expire are answered in ascending requester tag, the model's own order (log 40), each
as at its hold limit (`Obligations.HoldLimitExpires`).
Readings of the model: logs 23, 40. -/
def Obligations.SettingsConfigured : Prop :=
  ∀ (s : State) (h : CmdHead) (hold notify : BitVec 8), Taking s.dev →
    let d := chained h s.dev
    ((16 < hold.toNat ∨ 2 < notify.toNat) → exec (.configure h hold notify) s = .next { s with dev := finish (commandDone
      { kind := .commandDone, tag := h.tag, status := .badArgument } d) })
    ∧ (hold.toNat ≤ 16 → notify.toNat ≤ 2 →
      let limit : Option Nat :=
        if hold = 16 then d.command.holdLimit else if hold = 15 then none else some hold.toNat
      let enable : Bool := if notify = 2 then d.command.notifyEnable else notify = 1
      let set : Device := { d with command := { d.command with holdLimit := limit, notifyEnable := enable } }
      exec (.configure h hold notify) s = .next { s with dev := finish (commandDone
        { kind := .commandDone, tag := h.tag, status := .ok
          first := match limit with
            | none => 15
            | some k => k
          second := if enable = true then 1 else 0 }
        ((List.finRange 64).foldl expireIfOver set)) }
      ∧ ∀ (t : ReqTag) (q : Request), d.path.requests.get t = some q →
        ((q.state = .ready ∨ q.state = .forwarded ∨ limit = none) → expireIfOver set t = set)
        ∧ ∀ k, limit = some k → q.state ≠ .ready → q.state ≠ .forwarded →
          expireIfOver set t = if q.holdStart + 2 ^ k < d.now then expireRequest t set else set)

/-- QUERY_REGION answers a region's entry (R150). QUERY_STREAM answers one item of a stream's context, with zero for what
is absent (R151, Table 8-4a). -/
def Obligations.QueriesAnswered : Prop :=
  (∀ (s : State) (h : CmdHead), Taking s.dev →
     (16 ≤ h.target.toNat → exec (.queryRegion h) s = .next { s with dev := finish (commandDone
       { kind := .commandDone, tag := h.tag, status := .badArgument, region := h.target.toNat } (chained h s.dev)) })
     ∧ ∀ r : RegionNo, h.target.toNat = r.1 → let e := s.dev.regions.get r
       exec (.queryRegion h) s = .next { s with dev := finish (commandDone
         { kind := .commandDone, tag := h.tag, status := .ok, region := r.1
           stream := match e.stream with
             | none => 0xFF
             | some st => st.1
           address := e.base
           sequence := e.exponent
           epoch := e.admitted
           first := e.requested.code + e.effective.code * 0x100
             + (match e.resume with
               | none => 255
               | some m => m.code) * 0x10000
             + (if e.degrading = true then 0x1000000 else 0)
           second := match e.change with
             | .tagged t => t.toNat
             | .internal => 65536
             | .none => 65537 } (chained h s.dev)) })
  ∧ ∀ (s : State) (h : CmdHead) (item : BitVec 8), Taking s.dev →
      ((4 ≤ h.target.toNat ∨ 26 < item.toNat) → exec (.queryStream h item) s = .next { s with dev := finish (commandDone
        { kind := .commandDone, tag := h.tag, status := .badArgument, stream := h.target.toNat } (chained h s.dev)) })
      ∧ ∀ st : StreamNo, h.target.toNat = st.1 →
        let x := s.dev.streams.get st
        let g := s.dev.engine
        let blank : Report := { kind := .commandDone, tag := h.tag, status := .ok, stream := st.1 }
        let answers (r : Report) : Prop :=
          exec (.queryStream h item) s = .next { s with dev := finish (commandDone r (chained h s.dev)) }
        let code {α : Type} (f : α → Nat) (o : Option α) : Nat := match o with
          | none => 0
          | some a => f a
        let flag (b : Bool) (n : Nat) : Nat := if b = true then n else 0
        (item = 0 → answers { blank with
          epoch := code id x.epoch, sequence := code id x.committed, address := x.anchorAddress, label := x.stamp.toNat
          first := x.state.code + code (fun o => o.kind.code) x.operation * 0x100 + code Cause.code x.lossCause * 0x10000
          second := x.marks.length + x.history.length * 0x100 + x.positions.length * 0x10000
            + (flag x.saturated 1 + flag x.pendingMark.isSome 2 + flag x.entering 4 + flag x.extension.isSome 8
              + flag (x.invalidation != .none) 16) * 0x1000000 })
        ∧ (item = 1 → answers { blank with
          sequence := code id x.nextSequence, address := code (·.descriptor) x.current
          epoch := code (·.epoch) x.pendingMark, label := x.generation.toNat, first := code (·.index) x.current
          second := flag (x.newest == .b) 1 + 2 * flag (x.policy == .breakStream) 1
            + (match x.stallLimit with
              | none => 11
              | some k => k) * 0x100
            + (match x.next with
              | .absent => 0
              | .fetching _ => 1
              | .held _ _ => if x.extensionLink = none then 2 else 3) * 0x10000 })
        ∧ (2 ≤ item.toNat → item.toNat ≤ 9 →
          (∀ (i : item.toNat - 2 < x.marks.length), let m := x.marks[item.toNat - 2]
            answers { blank with epoch := m.epoch, label := m.label.toNat, sequence := m.sequence, first := x.marks.length })
          ∧ (x.marks.length ≤ item.toNat - 2 → answers { blank with first := x.marks.length }))
        ∧ (10 ≤ item.toNat → item.toNat ≤ 25 →
          (∀ (i : item.toNat - 10 < x.history.length), let e := x.history[item.toNat - 10]
            answers { blank with address := e.descriptor, sequence := e.first, first := e.count, second := e.base
                                 label := flag e.notify 1, epoch := x.history.length })
          ∧ (x.history.length ≤ item.toNat - 10 → answers { blank with epoch := x.history.length }))
        ∧ (item = 26 → g.owner ≠ some st → answers { blank with epoch := code id x.resumedTarget })
        ∧ (item = 26 → g.owner = some st → answers { blank with
          epoch := code id g.targetEpoch, label := code id g.walkTop, sequence := code id g.applyPointer
          address := code (recordAddress x) g.applyPointer, first := g.applied
          second := g.phase.code + g.skipped * 0x100 + g.restores * 0x10000 })

/-- SET_REGION is judged by its checks in order; accepted, it writes base, size and binding and nothing else of the entry
(R9, R10). -/
def Obligations.RegionSet : Prop :=
  ∀ (s : State) (h : CmdHead) (base : BitVec 64) (exponent stream : BitVec 8), Taking s.dev →
    let answer (status : Status) : Report := { kind := .commandDone, tag := h.tag, status := status, region := h.target.toNat }
    let answered (status : Status) (d : Device) := exec (.setRegion h base exponent stream) s =
      .next { s with dev := finish (commandDone (answer status) d) }
    let good : Prop := h.target.toNat < 16 ∧ 12 ≤ exponent.toNat ∧ exponent.toNat ≤ 40
      ∧ base.toNat % 2 ^ exponent.toNat = 0 ∧ base.toNat < 2 ^ 40 ∧ (stream.toNat < 4 ∨ stream = 0xFF)
    (¬ good → answered .badArgument (chained h s.dev))
    ∧ (good → ∀ r : RegionNo, h.target.toNat = r.1 → let e := s.dev.regions.get r
      ((e.requested ≠ .off ∨ e.effective ≠ .off) → answered .regionInUse (chained h s.dev))
      ∧ (e.requested = .off → e.effective = .off →
        (Overlaps s.dev r base.toNat exponent.toNat → answered .overlap (chained h s.dev))
        ∧ (¬ Overlaps s.dev r base.toNat exponent.toNat → ∀ b : Option StreamNo,
          (∀ i : StreamNo, b = some i ↔ stream.toNat = i.1) →
          answered .ok { chained h s.dev with
            regions := s.dev.regions.set r { e with base := base.toNat, exponent := exponent.toNat, stream := b } })))

/-- SET_MODE is judged by its checks in order; accepted, its COMMAND_DONE comes first, then MODE_SUPERSEDED for a pending
tag, then the requested mode moves: to the mode in force with MODE_REACHED at once, or with its tag pending and R7 applied
(R11, R12). -/
def Obligations.ModeSet : Prop :=
  ∀ (s : State) (h : CmdHead) (mode : BitVec 8), Taking s.dev →
    let answer (status : Status) : Report := { kind := .commandDone, tag := h.tag, status := status, region := h.target.toNat }
    let refused (status : Status) := exec (.setMode h mode) s =
      .next { s with dev := finish (commandDone (answer status) (chained h s.dev)) }
    ((16 ≤ h.target.toNat ∨ 4 < mode.toNat) → refused .badArgument)
    ∧ ∀ (r : RegionNo) (m : Mode), h.target.toNat = r.1 → mode.toNat = m.code →
      let e := s.dev.regions.get r
      let busy : Prop := e.degrading = true ∨ ∃ st, e.stream = some st
        ∧ ((s.dev.streams.get st).state = .rollingBack ∨ (s.dev.streams.get st).state = .resuming)
      let done : Device := commandDone (answer .ok) (chained h s.dev)
      let superseded : Device := match e.change with
        | .tagged t => pushReport { kind := .modeSuperseded, tag := t, region := r.1, stream := streamByte e.stream,
                                    address := e.base, first := e.requested.code, second := h.tag.toNat } done
        | _ => done
      (busy → refused .streamBusy)
      ∧ (¬ busy → m = .journal → e.stream = none → refused .noStream)
      ∧ (¬ busy → ¬ (m = .journal ∧ e.stream = none) → m ≠ .off → Overlaps s.dev r e.base e.exponent → refused .overlap)
      ∧ (¬ busy → ¬ (m = .journal ∧ e.stream = none) → (m = .off ∨ ¬ Overlaps s.dev r e.base e.exponent) →
        (m = e.effective → exec (.setMode h mode) s = .next { s with dev := finish (pushReport
          { kind := .modeReached, tag := h.tag, region := r.1, stream := streamByte e.stream, address := e.base,
            first := m.code, second := m.code }
          { superseded with regions := s.dev.regions.set r { e with requested := m, change := .none } }) })
        ∧ (m ≠ e.effective → exec (.setMode h mode) s = .next { s with dev := finish (testChange r
          { superseded with regions := s.dev.regions.set r { e with requested := m, change := .tagged h.tag } }) }))

/-- MARK is judged by its checks in order; taken, the epoch rises, the stream's filter entries go with its saturated flag,
and the mark is pending with its record unplaced (R91, R92). -/
def Obligations.MarkTaken : Prop :=
  ∀ (s : State) (h : CmdHead) (label : BitVec 32), Taking s.dev →
    let d := chained h s.dev
    let refused (status : Status) := exec (.mark h label) s = .next { s with dev := finish (commandDone
      { kind := .commandDone, tag := h.tag, status := status, stream := h.target.toNat } d) }
    (4 ≤ h.target.toNat → refused .badArgument)
    ∧ ∀ st : StreamNo, h.target.toNat = st.1 → let x := s.dev.streams.get st
      (¬ Unoccupied x → refused .streamBusy)
      ∧ (Unoccupied x → x.state ≠ .active → x.state ≠ .exhausted → refused .streamState)
      ∧ (Unoccupied x → (x.state = .active ∨ x.state = .exhausted) → ∀ e, x.epoch = some e →
        (4294967295 ≤ e → refused .epochLimit)
        ∧ (e < 4294967295 → exec (.mark h label) s = .next { s with dev := finish (
          (removeEntries (fun f => (d.regions.get f.region).stream == some st) d).withStream st fun _ => { x with
            operation := some ⟨.mark, h.tag, e + 1, label, 0, 0, 0⟩
            epoch := some (e + 1)
            saturated := false
            pendingMark := some ⟨e + 1, label, h.tag, none⟩ }) }))

/-- RELEASE is judged by its checks in order; taken, every older mark is retired with cause RELEASED, oldest first,
segments are freed with the named mark the oldest, and an anchor write is offered (R97, R98). -/
def Obligations.ReleaseTaken : Prop :=
  ∀ (s : State) (h : CmdHead) (epoch : BitVec 32), Taking s.dev →
    let d := chained h s.dev
    let refused (status : Status) := exec (.release h epoch) s = .next { s with dev := finish (commandDone
      { kind := .commandDone, tag := h.tag, status := status, stream := h.target.toNat } d) }
    ((4 ≤ h.target.toNat ∨ epoch = 0) → refused .badArgument)
    ∧ (epoch ≠ 0 → ∀ st : StreamNo, h.target.toNat = st.1 → let x := s.dev.streams.get st
      (¬ Unoccupied x → refused .streamBusy)
      ∧ (Unoccupied x → x.state ≠ .active → x.state ≠ .exhausted → refused .streamState)
      ∧ (Unoccupied x → (x.state = .active ∨ x.state = .exhausted) →
        ((∀ m ∈ x.marks, m.epoch ≠ epoch.toNat) → refused .noSuchMark)
        ∧ (∀ older m rest, x.marks = older ++ m :: rest → m.epoch = epoch.toNat → (∀ o ∈ older, o.epoch < epoch.toNat) →
          let y : Stream := { x with marks := m :: rest }
          exec (.release h epoch) s = .next { s with dev := finish (
            (older.zipIdx.foldl (fun d o => pushReport
              { kind := .markRetired, stream := st.1, epoch := o.1.epoch, label := o.1.label.toNat, sequence := o.1.sequence,
                first := 2, second := x.marks.length - 1 - o.2 } d) d).withStream st fun _ => { y.freeSegments with
                operation := some ⟨.release, h.tag, epoch.toNat, 0, 0, older.length, y.freeable⟩
                anchorWaiting := joined .release x.anchorWaiting }) })))

/-! ## The part's own writes -/

/-- The head-line write: a waiting one asks for its line when none is outstanding; at its grant it becomes the outstanding
one and carries head and producer index as they stand; its DONE lets the next ask; its ERROR is a device check (R143,
R156). The answer to one that was outstanding at a device clear is discarded, an ERROR too, but lets the next ask (R143); so does
the late answer to one abandoned at its response limit (R30, log 62).
Readings of the model: logs 24, 62. -/
def Obligations.HeadLineWritten : Prop :=
  (∀ s : State, let c := s.dev.command
    (c.headWaiting = true → c.headAsked = false → c.headOutstanding = false →
      exec .headLineWriteIssue s = .next { s with dev := finish (
        offer ⟨.headLine, windowBase s.dev.winsel + 0x40, true, BitVec.allOnes 64, 0⟩
          { s.dev with command := { c with headAsked := true } }) })
    ∧ ((c.headWaiting = false ∨ c.headAsked = true ∨ c.headOutstanding = true) →
      exec .headLineWriteIssue s = .next { s with dev := finish s.dev }))
  ∧ (∀ (s : State) (tag : MemTag) (x : PortRequest), arbiterChoice s.dev = some x → x.job = .headLine →
    (∀ i ∈ s.dev.arbiter.issued, i.tag ≠ tag) →
    let data : Line := headLine s.dev.command.head s.dev.report.producer
    exec (.arbiterGrant tag) s = .next { s with dev := finish { s.dev with
      command := { s.dev.command with headWaiting := false, headAsked := false, headOutstanding := true }
      arbiter := {
        waiting := s.dev.arbiter.waiting.erase x
        issued := s.dev.arbiter.issued ++ [⟨tag, { x with data := data }, false, false, s.dev.now⟩]
        age := if (oldestOf s.dev .c5).isSome = true then min 8 (s.dev.arbiter.age + 1) else s.dev.arbiter.age }
      sent := s.dev.sent ++ [⟨tag, x.write, x.line, x.mask, data⟩] } })
  ∧ (∀ (s : State) (t : MemTag) (r : PortRequest), Outstanding s.dev t r → r.job = .headLine → r.write = true →
    let d := returned t r s.dev
    let free : Device := { d with command := { d.command with headOutstanding := false } }
    (d.command.headWaiting = true → d.command.headAsked = false → exec (.headLineWriteAnswer ⟨t, none⟩ .done) s =
      .next { s with dev := finish (offer ⟨.headLine, windowBase s.dev.winsel + 0x40, true, BitVec.allOnes 64, 0⟩
        { free with command := { free.command with headAsked := true } }) })
    ∧ ((d.command.headWaiting = false ∨ d.command.headAsked = true) → exec (.headLineWriteAnswer ⟨t, none⟩ .done) s =
      .next { s with dev := finish free })
    ∧ exec (.headLineWriteAnswer ⟨t, none⟩ .error) s = .next { s with dev := finish (deviceCheck .reportWrite .none free) })
  ∧ ∀ (s : State) (t : MemTag) (r : PortRequest) (a : MemAnswer),
    let d := returned t r s.dev
    let free : Device := { d with command := { d.command with headOutstanding := false } }
    let left (e : Device) : Prop :=
      (d.command.headWaiting = true → d.command.headAsked = false →
        e = offer ⟨.headLine, windowBase s.dev.winsel + 0x40, true, BitVec.allOnes 64, 0⟩
          { free with command := { free.command with headAsked := true } })
      ∧ ((d.command.headWaiting = false ∨ d.command.headAsked = true) → e = free)
    (Outstanding s.dev t r → r.job = .lateHeadLine → r.write = true → (∀ l, a ≠ .data l) →
      ∃ e, left e ∧ exec (.headLineWriteAnswer ⟨t, none⟩ a) s = .next { s with dev := finish e })
    ∧ ∀ i, issuedAt s.dev t = some i → i.abandoned = true → i.request = r → (r.job = .headLine ∨ r.job = .lateHeadLine) →
      ∃ e, left e ∧ exec (.abandonedTagAnswer t a) s = .next { s with dev := finish e }

/-- The report write: issued for the front report with the next report sequence and the lap bit; at its DONE the report
leaves the queue, the producer index rises, a head-line write is offered, and a merged summary joins the queue once fewer
than 16 are left; its ERROR is a device check (R155, R156, R159). -/
def Obligations.ReportWritten : Prop :=
  (∀ s : State, let u := s.dev.report
    (∀ r rest, u.queue = r :: rest → u.ringSet = true → unacknowledged u < 2 ^ u.exponent → u.writing = false →
      let r' : Report := { r with number := u.sequence + 1, lap := decide (u.producer < 2 ^ u.exponent) }
      exec .reportWriteIssue s = .next { s with dev := finish (
        offer ⟨.report, u.base + u.producer % 2 ^ u.exponent * 64, true, BitVec.allOnes 64, r'.encode⟩
          { s.dev with report := { u with queue := r' :: rest, sequence := u.sequence + 1, writing := true } }) })
    ∧ ((u.queue = [] ∨ u.ringSet = false ∨ 2 ^ u.exponent ≤ unacknowledged u ∨ u.writing = true) →
      exec .reportWriteIssue s = .next { s with dev := finish s.dev }))
  ∧ (∀ (s : State) (t : MemTag) (r : PortRequest), Outstanding s.dev t r → r.job = .report → r.write = true →
    let d := returned t r s.dev
    let u := d.report
    exec (.reportWriteAnswer ⟨t, none⟩ .done) s = .next { s with dev := finish (mergeSummary (offerHeadLine { d with
      report := { u with
        queue := u.queue.tail, writing := false, producer := (u.producer + 1) % 2 ^ (u.exponent + 1) } })) }
    ∧ exec (.reportWriteAnswer ⟨t, none⟩ .error) s = .next { s with dev := finish (deviceCheck .reportWrite .none d) })
  ∧ ∀ d : Device, let m := d.report.summary
    let bytes (a b c e : Fin 10) : Nat :=
      m.counts.get a + m.counts.get b * 0x100 + m.counts.get c * 0x10000 + m.counts.get e * 0x1000000
    let bit (i : Fin 4) : Nat := if m.mask.get i = true then 2 ^ i.1 else 0
    ((16 ≤ d.report.queue.length ∨ m.total = 0) → mergeSummary d = d)
    ∧ (d.report.queue.length < 16 → m.total ≠ 0 → mergeSummary d = { d with report := { d.report with
      queue := d.report.queue ++ [{
        kind := .reportsMerged, status := .ok, stream := 0xFF, first := m.total, second := bit 0 + bit 1 + bit 2 + bit 3
        label := bytes 0 1 2 3, sequence := bytes 4 5 6 7, epoch := m.counts.get 8 + m.counts.get 9 * 0x100 }]
      summary := ⟨Table.fill 4 false, Table.fill 10 0, 0⟩ } })

/-! ## Device checks -/

/-- What a device check does (R162, R165, R169): in NORMAL it begins the handling, with the part's own outstanding tags as
the hold set, the requests of C2, C3 and C4 withdrawn, and the stream named whose loss's invalidation failed, if that is the
cause (R167); later it is noted as second cause where there is none, and ends
DEVICE_RECORD and DEVICE_INVALIDATE; in DEVICE_CLOSE it does nothing. DEVICE_CLEAR is one of cause COMMAND (R152). A check
code found failed by a step that reads an entry is one of cause INTERNAL_STATE, after the step's own effect, in each of the
six rows that can meet one (R162, log 10). At the beginning the requests of C2 to C4 leave line queues too (log 41), and journal
reads, restore writes and scan reads on the memory port lose their owner (R84, R117). A second check abandons an invalidation
without a result: NOT_INVALIDATED with any of its lines issued, NOT_ATTEMPTED with none, its lines withdrawn (R169), and
NOT_ATTEMPTED too where an earlier anchor write is only awaited (log 60). One in DEVICE_RECORD abandons the record's
first line and enters DEVICE_CLOSE, and no more (R169, logs 70, 71).
Readings of the model: logs 10, 41, 57, 60, 70, 71. -/
def Obligations.DeviceCheckHandled : Prop :=
  (∀ (s : State) (h : CmdHead), Taking s.dev →
    exec (.deviceClear ⟨h, none⟩) s = .next { s with dev := finish (deviceCheck .command .none (chained h s.dev)) })
  ∧ (let reads (row : Option CheckDetail → Instr) (effect : Device → Device) : Prop := ∀ s : State,
      exec (row none) s = .next { s with dev := finish (effect s.dev) }
      ∧ ∀ f, exec (row (some f)) s = .next { s with dev := finish (deviceCheck .internalState f (effect s.dev)) }
    (∀ line, reads (.lineGrant line) fun d => (tryLineGrant line d).getD d)
    ∧ (∀ t, reads (fun f => .memoryResponseLimit ⟨t, f⟩) fun d => (tryMemoryResponseLimit t d).getD d)
    ∧ (∀ h, reads (fun f => .deviceClear ⟨h, f⟩) (takeRecord h 0x3F runDeviceClear))
    ∧ ∀ t a, reads (fun f => .headLineWriteAnswer ⟨t, f⟩ a) (memoryAnswer t a)
      ∧ reads (fun f => .reportWriteAnswer ⟨t, f⟩ a) (memoryAnswer t a)
      ∧ reads (fun f => .strayResponse ⟨t, f⟩ a) (memoryAnswer t a))
  ∧ (∀ (cause : DeviceCause) (detail : CheckDetail) (d : Device), deviceCheck cause detail d = deviceCheckFor none cause detail d)
  ∧ (∀ (d : Device) (st : StreamNo),
    let lines (j : Job) : Bool := match j with
      | .anchorWrite s _ => s == st
      | _ => false
    let given (r : CheckResult) (e : Device) : Device := { e with check := { e.check with
      results := e.check.results.set st r, stages := e.check.stages.set st .none } }
    let begun : Prop := (∃ i ∈ d.arbiter.issued, lines i.request.job = true)
      ∨ ∃ w, (d.streams.get st).anchorOutstanding = some w ∧ 0 < w.acknowledged
    let gone (e : Device) : Device := { abandon lines e with
      streams := d.streams.set st { d.streams.get st with anchorWaiting := none, anchorOutstanding := none } }
    (d.check.stages.get st = .none → abandonInvalidation d st = d)
    ∧ (d.check.stages.get st = .awaiting → abandonInvalidation d st = given .notAttempted d)
    ∧ (d.check.stages.get st = .offered →
      (begun → abandonInvalidation d st = gone (given .notInvalidated d))
      ∧ (¬ begun → abandonInvalidation d st = gone (given .notAttempted d))))
  ∧ ∀ (loss : Option StreamNo) (cause : DeviceCause) (detail : CheckDetail) (d : Device),
    let t := deviceCheckFor loss cause detail d
    let second : Option (DeviceCause × CheckDetail) := match d.check.second with
      | none => some (cause, detail)
      | some x => some x
    let noted : Device := { d with check := { d.check with second := second } }
    (d.check.state = .normal →
      t.check = { d.check with
        state := .hold, cause := some (cause, detail), second := none
        holdSet := (d.arbiter.issued.filter fun i => !i.forwarded && !i.abandoned).map (·.tag)
        results := Table.fill 4 .notAttempted, stages := Table.fill 4 .none, lossStream := loss }
      ∧ t.arbiter.waiting = d.arbiter.waiting.filter (fun r => r.job.portClass == .c1 || r.job.portClass == .c5)
      ∧ t.arbiter.issued.map (fun i => (i.tag, i.forwarded, i.abandoned, i.request.line)) =
        d.arbiter.issued.map (fun i => (i.tag, i.forwarded, i.abandoned, i.request.line))
      ∧ t.path.requests = d.path.requests
      ∧ { t with check := d.check, arbiter := d.arbiter, path := d.path } = d
      ∧ (let w := withdraw (fun j => j.portClass == .c2 || j.portClass == .c3 || j.portClass == .c4) d
        t.path = w.path ∧ t.arbiter = { w.arbiter with issued := d.arbiter.issued.map fun i => match i.request.job with
          | .journalRead _ _ | .restore _ | .scanRead _ _ _ => { i with request := { i.request with job := .discard .c4 } }
          | _ => i }))
    ∧ (d.check.state = .hold → t = noted)
    ∧ (d.check.state = .record → t = enterClose (abandon (fun j => j == .faultFirst) noted))
    ∧ (d.check.state = .invalidate → t = enterClose ((List.finRange 4).foldl abandonInvalidation noted))
    ∧ (d.check.state = .close → t = d)

/-- The handling's states: an empty hold set begins DEVICE_RECORD with the stream snapshot and the record's first line,
whose answer begins DEVICE_INVALIDATE; DEVICE_CLOSE offers the closing line, whose answer carries out the device clear,
before anything queued on the line is granted (log 75), with record written taken at DONE (R166, R168). A line held by an abandoned tag is not written. At its entry DEVICE_INVALIDATE
takes the streams in turn, and passes to DEVICE_CLOSE where nothing is offered or awaited (R167). What it does for one stream:
its waiting anchor write is dropped; for one attached, an invalidation is offered now, or at the answer to the anchor write
outstanding (R167; `Obligations.AnchorWriteIssued`). A line of a write still to be answered, or of the copy to be written, blocks it
where an abandoned tag holds the line, or an admitted request of a covered region that is not yet on the memory port holds it or
waits for it (R167). An ATTACH has judged its copies when the last of their lines has arrived
(log 48).
Readings of the model: logs 20, 48, 51, 55, 71, 72, 75. -/
def Obligations.HandlingProceeds : Prop :=
  ((∀ s : State, let d := s.dev
     let line : Nat := windowBase d.winsel + 0x100
     let snapshot : Table (Bool × Nat) 4 := d.streams.map fun x => (x.state != .detached, x.anchorAddress)
     let entered : Device := { d with check := { d.check with state := .record, snapshot := snapshot } }
     (d.check.state = .hold → d.check.holdSet = [] →
       ((∀ i ∈ d.arbiter.issued, i.abandoned = true → i.request.line ≠ line) → exec .holdSetDrained s =
         .next { s with dev := finish (offer
           ⟨.faultFirst, line, true, BitVec.allOnes 64, faultFirstLine (d.check.clearCount + 1).toNat snapshot⟩ entered) })
       ∧ ((∃ i ∈ d.arbiter.issued, i.abandoned = true ∧ i.request.line = line) → exec .holdSetDrained s =
         .next { s with dev := finish (enterInvalidate entered) }))
     ∧ ((d.check.state ≠ .hold ∨ d.check.holdSet ≠ []) → exec .holdSetDrained s = .next { s with dev := finish d }))
   ∧ (∀ (s : State) (t : MemTag) (r : PortRequest), Outstanding s.dev t r → r.write = true →
     let d := returned t r s.dev
     (r.job = .faultFirst → s.dev.check.state = .record → ∀ a ∈ [MemAnswer.done, .error],
       exec (.faultRecordFirstLineAnswer t a) s = .next { s with dev := finish (enterInvalidate d) })
     ∧ (r.job = .faultClosing →
       exec (.faultRecordClosingLineAnswer t .done) s = .next { s with dev := finish (deviceClear
         { d with check := { d.check with recordWritten := some (d.check.clearCount + 1) } }) }
       ∧ exec (.faultRecordClosingLineAnswer t .error) s = .next { s with dev := finish (deviceClear d) }))
   ∧ (∀ d : Device, let line : Nat := windowBase d.winsel + 0x140
     let entered : Device := { d with check := { d.check with state := .close, stages := Table.fill 4 .none } }
     ((∀ i ∈ d.arbiter.issued, i.abandoned = true → i.request.line ≠ line) →
       enterClose d = offer ⟨.faultClosing, line, true, BitVec.allOnes 64, 0⟩ entered)
     ∧ ((∃ i ∈ d.arbiter.issued, i.abandoned = true ∧ i.request.line = line) → enterClose d = deviceClear entered))
   ∧ ∀ (s : State) (tag : MemTag) (x : PortRequest), arbiterChoice s.dev = some x → x.job = .faultClosing →
     (∀ i ∈ s.dev.arbiter.issued, i.tag ≠ tag) →
     let c := s.dev.check
     let data : Line := faultClosingLine (c.clearCount + 1).toNat c.cause c.second c.results
     exec (.arbiterGrant tag) s = .next { s with dev := finish { s.dev with
       arbiter := {
         waiting := s.dev.arbiter.waiting.erase x
         issued := s.dev.arbiter.issued ++ [⟨tag, { x with data := data }, false, false, s.dev.now⟩]
         age := if (oldestOf s.dev .c5).isSome = true then min 8 (s.dev.arbiter.age + 1) else s.dev.arbiter.age }
       sent := s.dev.sent ++ [⟨tag, x.write, x.line, x.mask, data⟩] } })
  ∧ (∀ d : Device,
      let started : Device := [0, 1, 2, 3].foldl startInvalidation { d with check := { d.check with state := .invalidate } }
      ((∀ st, started.check.stages.get st = .none) → enterInvalidate d = enterClose started)
      ∧ ((∃ st, started.check.stages.get st ≠ .none) → enterInvalidate d = started))
  ∧ (∀ (d : Device) (st : StreamNo), (d.check.snapshot.get st).1 = false → startInvalidation d st =
      { d with streams := d.streams.set st { d.streams.get st with anchorWaiting := none } })
  ∧ (∀ (d : Device) (st : StreamNo), (d.check.snapshot.get st).1 = true →
      let x : Stream := { d.streams.get st with anchorWaiting := none }
      let dropped : Device := { d with streams := d.streams.set st x }
      let marked (r : CheckResult) (g : InvalidateStage) (e : Device) : Device := { e with check := { e.check with
        results := e.check.results.set st r, stages := e.check.stages.set st g } }
      let failed : Prop := d.check.cause = some (.internalState, .streamContext st)
        ∨ d.check.second = some (.internalState, .streamContext st)
      let unjudged : Prop := (x.state = .opening ∨ x.state = .resuming) ∧ ∃ a, x.attach = some a ∧ a.judged = false
      let copyLine (i : Fin 16) : Nat := (if x.newest = .a then x.anchorAddress + 1024 else x.anchorAddress) + 64 * i.1
      (failed → startInvalidation d st = dropped)
      ∧ (¬ failed → d.check.lossStream = some st → startInvalidation d st = marked .notInvalidated .none dropped)
      ∧ (¬ failed → d.check.lossStream ≠ some st → unjudged → startInvalidation d st = dropped)
      ∧ (¬ failed → d.check.lossStream ≠ some st → ¬ unjudged →
        (x.anchorOutstanding ≠ none →
          ((∃ l ∈ unansweredAnchorLines dropped st, lineBlocked dropped l = true) → startInvalidation d st = dropped)
          ∧ ((∀ l ∈ unansweredAnchorLines dropped st, lineBlocked dropped l = false) →
            startInvalidation d st = marked .notAttempted .awaiting dropped))
        ∧ (x.anchorOutstanding = none → startInvalidation d st = offerInvalidation st dropped))
      ∧ (let d := dropped
        let marked (g : InvalidateStage) (e : Device) : Device := { e with check := { e.check with
          results := e.check.results.set st .notAttempted, stages := e.check.stages.set st g } }
        ((∃ i, lineBlocked d (copyLine i) = true) → offerInvalidation st d = marked .none d)
        ∧ ((∀ i, lineBlocked d (copyLine i) = false) → offerInvalidation st d = marked .offered { d with
          streams := d.streams.set st { x with anchorWaiting := some ⟨[.check], some (x.anchorAddress, {
            stamp := x.stamp, cleanDetach := false, invalidated := true, rollbackPending := false, target := 0
            epoch := x.epoch.getD 0 - (if x.pendingMark = none then 0 else 1)
            nextSequence := x.committed.getD 0 + 1, marks := []
            history := x.history.filter fun h => decide (h.first ≤ x.committed.getD 0 + 1)
            policy := x.policy, stallLimit := x.stallLimit })⟩ } })))
  ∧ (∀ (d : Device) (line : Nat), lineBlocked d line = true ↔
      (∃ i ∈ d.arbiter.issued, i.abandoned = true ∧ i.request.line = line)
      ∨ ∃ g q, d.path.requests.get g = some q ∧ q.line = line ∧ q.covering ≠ none ∧ q.state ≠ .waitMode
        ∧ q.state ≠ .forwarded)
  ∧ ∀ (d : Device) (st : StreamNo) (line : Nat),
      let wanted (r : PortRequest) : Prop := r.line = line ∧ ∃ i, r.job = .anchorWrite st i
      line ∈ unansweredAnchorLines d st ↔
        (∃ r ∈ d.arbiter.waiting, wanted r) ∨ (∃ i ∈ d.arbiter.issued, wanted i.request)
        ∨ ∃ l ∈ d.path.locks, l.line = line ∧ ∃ r i, .own r ∈ l.queue ∧ r.job = .anchorWrite st i

/-- What the device clear leaves, block by block (R168 with R2, R35, R40, R84, R117, R139, R153): ranges, settings,
forwarded requests, tags and record written are kept, all else is cleared, and no request is left that was not forwarded: each
is answered RETRY, and lowers its region's admitted count if it was admitted (section 1.1); it leaves its line's queue or releases
its line, but for a line that its slot's outstanding capture read keeps (R24, R25, R40). The part's own requests are withdrawn
with their lines where they wait, and lose their owner where they are issued (R35, R143, R153). The head-line write position keeps
its outstanding write (R143). `sent` and `responses` are the
model's records of the ports (log 9).
Readings of the model: log 9. -/
def Obligations.DeviceClearLeaves : Prop :=
  ∀ d : Device, let t := deviceClear d
    (∀ r, let e := d.regions.get r
      let answered := (List.finRange 64).filter fun g => match d.path.requests.get g with
        | none => false
        | some q => q.covering == some r
          && (q.state == .waitOrder || q.state == .waitSlot || q.state == .capturing)
      t.regions.get r = ⟨e.base, e.exponent, none, .off, .off, .none, none, e.admitted - answered.length, false⟩)
    ∧ (∀ g q, t.path.requests.get g = some q →
      d.path.requests.get g = some q ∧ (q.state = .ready ∨ q.state = .forwarded))
    ∧ (∀ g q, d.path.requests.get g = some q → (q.state = .ready ∨ q.state = .forwarded) →
      t.path.requests.get g = some q)
    ∧ (∃ answered : List ReqTag, t.responses = d.responses ++ answered.map (fun g => (g, Response.retry))
      ∧ answered.Pairwise (· < ·)
      ∧ ∀ g, g ∈ answered ↔ ∃ q, d.path.requests.get g = some q ∧ q.state ≠ .ready ∧ q.state ≠ .forwarded)
    ∧ t.path.admissions = d.path.admissions ∧ t.path.fence = d.path.fence
    ∧ t.arbiter.age = 0
    ∧ t.arbiter.waiting = d.arbiter.waiting.filter (fun r => match r.job with
      | .forward _ => true
      | _ => false)
    ∧ t.arbiter.issued = d.arbiter.issued.map (fun i => match i.request.job with
      | .forward _ => i
      | .headLine | .lateHeadLine => { i with request := { i.request with job := .lateHeadLine } }
      | j => { i with request := { i.request with job := .discard j.portClass } })
    ∧ (let answered := (List.finRange 64).filter fun g => match d.path.requests.get g with
        | some q => q.state != .ready && q.state != .forwarded
        | none => false
      let kept (g : ReqTag) : Bool := match slotOwnedBy d g with
        | some (k, c) => c.phase == .reading && captureIssued d k
        | none => false
      let retried : Device := answered.foldl (fun e g => match d.path.requests.get g with
        | some q =>
          if q.state = .waitOrder then leaveLine q.line g e
          else if q.state = .waitSlot then releaseLine q.line e
          else if q.state = .capturing then if kept g = true then e else releaseLine q.line e
          else e
        | none => e) d
      t.path.locks = (abandon (fun j => match j with
        | .forward _ => false
        | _ => true) retried).path.locks)
    ∧ (∀ l ∈ t.path.locks, ∀ r, .own r ∈ l.queue → ∃ g, r.job = .forward g)
    ∧ t.capture = ⟨[], Table.fill 16 none, []⟩ ∧ t.streams = Table.fill 4 Stream.cold ∧ t.engine = Engine.cold
    ∧ t.command = { CommandUnit.cold with
      base := d.command.base, exponent := d.command.exponent
      holdLimit := d.command.holdLimit, notifyEnable := d.command.notifyEnable
      headOutstanding := d.command.headOutstanding }
    ∧ t.report = { ReportUnit.cold with base := d.report.base, exponent := d.report.exponent }
    ∧ t.check = { CheckUnit.cold with
      clearCount := d.check.clearCount + 1, recordWritten := d.check.recordWritten }
    ∧ t.now = d.now ∧ t.winsel = d.winsel ∧ t.notify = d.notify ∧ t.sent = d.sent
end

