-- ==== Sys2Proof/Laws/State.lean ====
section
/-! SUPPORT. Tables, and what each update of one entry leaves: one lemma per field per update, each true by definition. -/
namespace Sys2Proof

@[simp] theorem Table.get_set {α : Type} {n : Nat} (t : Table α n) (i : Fin n) (a : α) : (t.set i a).get i = a := by
  simp [Table.get, Table.set]

theorem Table.get_set_of_ne {α : Type} {n : Nat} (t : Table α n) {i j : Fin n} (h : i ≠ j) (a : α) :
    (t.set i a).get j = t.get j := by
  have : i.1 ≠ j.1 := fun e => h (Fin.ext e)
  simp [Table.get, Table.set, this]

@[simp] theorem Table.set_set {α : Type} {n : Nat} (t : Table α n) (i : Fin n) (a b : α) :
    (t.set i a).set i b = t.set i b := by
  simp [Table.set]

@[simp] theorem Table.set_get_self {α : Type} {n : Nat} (t : Table α n) (i : Fin n) : t.set i (t.get i) = t := by
  cases t
  simp [Table.set, Table.get]

@[simp] theorem Table.get_fill {α : Type} (n : Nat) (a : α) (i : Fin n) : (Table.fill n a).get i = a := by
  simp [Table.get, Table.fill]

@[simp] theorem Table.get_map {α β : Type} {n : Nat} (f : α → β) (t : Table α n) (i : Fin n) :
    (t.map f).get i = f (t.get i) := by
  simp [Table.get, Table.map]

namespace Machine

@[simp] theorem Device.withRegion_now (d : Device) (r : RegionNo) (f : Region → Region) : (d.withRegion r f).now = d.now := rfl
@[simp] theorem Device.withRegion_winsel (d : Device) (r : RegionNo) (f : Region → Region) : (d.withRegion r f).winsel = d.winsel := rfl
@[simp] theorem Device.withRegion_path (d : Device) (r : RegionNo) (f : Region → Region) : (d.withRegion r f).path = d.path := rfl
@[simp] theorem Device.withRegion_arbiter (d : Device) (r : RegionNo) (f : Region → Region) : (d.withRegion r f).arbiter = d.arbiter := rfl
@[simp] theorem Device.withRegion_capture (d : Device) (r : RegionNo) (f : Region → Region) : (d.withRegion r f).capture = d.capture := rfl
@[simp] theorem Device.withRegion_streams (d : Device) (r : RegionNo) (f : Region → Region) : (d.withRegion r f).streams = d.streams := rfl
@[simp] theorem Device.withRegion_engine (d : Device) (r : RegionNo) (f : Region → Region) : (d.withRegion r f).engine = d.engine := rfl
@[simp] theorem Device.withRegion_command (d : Device) (r : RegionNo) (f : Region → Region) : (d.withRegion r f).command = d.command := rfl
@[simp] theorem Device.withRegion_report (d : Device) (r : RegionNo) (f : Region → Region) : (d.withRegion r f).report = d.report := rfl
@[simp] theorem Device.withRegion_check (d : Device) (r : RegionNo) (f : Region → Region) : (d.withRegion r f).check = d.check := rfl
@[simp] theorem Device.withRegion_notify (d : Device) (r : RegionNo) (f : Region → Region) : (d.withRegion r f).notify = d.notify := rfl
@[simp] theorem Device.withRegion_responses (d : Device) (r : RegionNo) (f : Region → Region) : (d.withRegion r f).responses = d.responses := rfl
@[simp] theorem Device.withRegion_sent (d : Device) (r : RegionNo) (f : Region → Region) : (d.withRegion r f).sent = d.sent := rfl

@[simp] theorem Device.withStream_now (d : Device) (x : StreamNo) (f : Stream → Stream) : (d.withStream x f).now = d.now := rfl
@[simp] theorem Device.withStream_winsel (d : Device) (x : StreamNo) (f : Stream → Stream) : (d.withStream x f).winsel = d.winsel := rfl
@[simp] theorem Device.withStream_regions (d : Device) (x : StreamNo) (f : Stream → Stream) : (d.withStream x f).regions = d.regions := rfl
@[simp] theorem Device.withStream_path (d : Device) (x : StreamNo) (f : Stream → Stream) : (d.withStream x f).path = d.path := rfl
@[simp] theorem Device.withStream_arbiter (d : Device) (x : StreamNo) (f : Stream → Stream) : (d.withStream x f).arbiter = d.arbiter := rfl
@[simp] theorem Device.withStream_capture (d : Device) (x : StreamNo) (f : Stream → Stream) : (d.withStream x f).capture = d.capture := rfl
@[simp] theorem Device.withStream_engine (d : Device) (x : StreamNo) (f : Stream → Stream) : (d.withStream x f).engine = d.engine := rfl
@[simp] theorem Device.withStream_command (d : Device) (x : StreamNo) (f : Stream → Stream) : (d.withStream x f).command = d.command := rfl
@[simp] theorem Device.withStream_report (d : Device) (x : StreamNo) (f : Stream → Stream) : (d.withStream x f).report = d.report := rfl
@[simp] theorem Device.withStream_check (d : Device) (x : StreamNo) (f : Stream → Stream) : (d.withStream x f).check = d.check := rfl
@[simp] theorem Device.withStream_notify (d : Device) (x : StreamNo) (f : Stream → Stream) : (d.withStream x f).notify = d.notify := rfl
@[simp] theorem Device.withStream_responses (d : Device) (x : StreamNo) (f : Stream → Stream) : (d.withStream x f).responses = d.responses := rfl
@[simp] theorem Device.withStream_sent (d : Device) (x : StreamNo) (f : Stream → Stream) : (d.withStream x f).sent = d.sent := rfl

@[simp] theorem Device.withSlot_now (d : Device) (k : SlotNo) (c : Option Slot) : (d.withSlot k c).now = d.now := rfl
@[simp] theorem Device.withSlot_winsel (d : Device) (k : SlotNo) (c : Option Slot) : (d.withSlot k c).winsel = d.winsel := rfl
@[simp] theorem Device.withSlot_regions (d : Device) (k : SlotNo) (c : Option Slot) : (d.withSlot k c).regions = d.regions := rfl
@[simp] theorem Device.withSlot_path (d : Device) (k : SlotNo) (c : Option Slot) : (d.withSlot k c).path = d.path := rfl
@[simp] theorem Device.withSlot_arbiter (d : Device) (k : SlotNo) (c : Option Slot) : (d.withSlot k c).arbiter = d.arbiter := rfl
@[simp] theorem Device.withSlot_streams (d : Device) (k : SlotNo) (c : Option Slot) : (d.withSlot k c).streams = d.streams := rfl
@[simp] theorem Device.withSlot_engine (d : Device) (k : SlotNo) (c : Option Slot) : (d.withSlot k c).engine = d.engine := rfl
@[simp] theorem Device.withSlot_command (d : Device) (k : SlotNo) (c : Option Slot) : (d.withSlot k c).command = d.command := rfl
@[simp] theorem Device.withSlot_report (d : Device) (k : SlotNo) (c : Option Slot) : (d.withSlot k c).report = d.report := rfl
@[simp] theorem Device.withSlot_check (d : Device) (k : SlotNo) (c : Option Slot) : (d.withSlot k c).check = d.check := rfl
@[simp] theorem Device.withSlot_notify (d : Device) (k : SlotNo) (c : Option Slot) : (d.withSlot k c).notify = d.notify := rfl
@[simp] theorem Device.withSlot_responses (d : Device) (k : SlotNo) (c : Option Slot) : (d.withSlot k c).responses = d.responses := rfl
@[simp] theorem Device.withSlot_sent (d : Device) (k : SlotNo) (c : Option Slot) : (d.withSlot k c).sent = d.sent := rfl

@[simp] theorem Device.mapSlot_now (d : Device) (k : SlotNo) (f : Slot → Slot) : (d.mapSlot k f).now = d.now := rfl
@[simp] theorem Device.mapSlot_winsel (d : Device) (k : SlotNo) (f : Slot → Slot) : (d.mapSlot k f).winsel = d.winsel := rfl
@[simp] theorem Device.mapSlot_regions (d : Device) (k : SlotNo) (f : Slot → Slot) : (d.mapSlot k f).regions = d.regions := rfl
@[simp] theorem Device.mapSlot_path (d : Device) (k : SlotNo) (f : Slot → Slot) : (d.mapSlot k f).path = d.path := rfl
@[simp] theorem Device.mapSlot_arbiter (d : Device) (k : SlotNo) (f : Slot → Slot) : (d.mapSlot k f).arbiter = d.arbiter := rfl
@[simp] theorem Device.mapSlot_streams (d : Device) (k : SlotNo) (f : Slot → Slot) : (d.mapSlot k f).streams = d.streams := rfl
@[simp] theorem Device.mapSlot_engine (d : Device) (k : SlotNo) (f : Slot → Slot) : (d.mapSlot k f).engine = d.engine := rfl
@[simp] theorem Device.mapSlot_command (d : Device) (k : SlotNo) (f : Slot → Slot) : (d.mapSlot k f).command = d.command := rfl
@[simp] theorem Device.mapSlot_report (d : Device) (k : SlotNo) (f : Slot → Slot) : (d.mapSlot k f).report = d.report := rfl
@[simp] theorem Device.mapSlot_check (d : Device) (k : SlotNo) (f : Slot → Slot) : (d.mapSlot k f).check = d.check := rfl
@[simp] theorem Device.mapSlot_notify (d : Device) (k : SlotNo) (f : Slot → Slot) : (d.mapSlot k f).notify = d.notify := rfl
@[simp] theorem Device.mapSlot_responses (d : Device) (k : SlotNo) (f : Slot → Slot) : (d.mapSlot k f).responses = d.responses := rfl
@[simp] theorem Device.mapSlot_sent (d : Device) (k : SlotNo) (f : Slot → Slot) : (d.mapSlot k f).sent = d.sent := rfl

@[simp] theorem Device.withFilter_now (d : Device) (l : List FilterEntry) : (d.withFilter l).now = d.now := rfl
@[simp] theorem Device.withFilter_winsel (d : Device) (l : List FilterEntry) : (d.withFilter l).winsel = d.winsel := rfl
@[simp] theorem Device.withFilter_regions (d : Device) (l : List FilterEntry) : (d.withFilter l).regions = d.regions := rfl
@[simp] theorem Device.withFilter_path (d : Device) (l : List FilterEntry) : (d.withFilter l).path = d.path := rfl
@[simp] theorem Device.withFilter_arbiter (d : Device) (l : List FilterEntry) : (d.withFilter l).arbiter = d.arbiter := rfl
@[simp] theorem Device.withFilter_streams (d : Device) (l : List FilterEntry) : (d.withFilter l).streams = d.streams := rfl
@[simp] theorem Device.withFilter_engine (d : Device) (l : List FilterEntry) : (d.withFilter l).engine = d.engine := rfl
@[simp] theorem Device.withFilter_command (d : Device) (l : List FilterEntry) : (d.withFilter l).command = d.command := rfl
@[simp] theorem Device.withFilter_report (d : Device) (l : List FilterEntry) : (d.withFilter l).report = d.report := rfl
@[simp] theorem Device.withFilter_check (d : Device) (l : List FilterEntry) : (d.withFilter l).check = d.check := rfl
@[simp] theorem Device.withFilter_notify (d : Device) (l : List FilterEntry) : (d.withFilter l).notify = d.notify := rfl
@[simp] theorem Device.withFilter_responses (d : Device) (l : List FilterEntry) : (d.withFilter l).responses = d.responses := rfl
@[simp] theorem Device.withFilter_sent (d : Device) (l : List FilterEntry) : (d.withFilter l).sent = d.sent := rfl

@[simp] theorem Device.withRequest_now (d : Device) (t : ReqTag) (q : Option Request) : (d.withRequest t q).now = d.now := rfl
@[simp] theorem Device.withRequest_winsel (d : Device) (t : ReqTag) (q : Option Request) : (d.withRequest t q).winsel = d.winsel := rfl
@[simp] theorem Device.withRequest_regions (d : Device) (t : ReqTag) (q : Option Request) : (d.withRequest t q).regions = d.regions := rfl
@[simp] theorem Device.withRequest_arbiter (d : Device) (t : ReqTag) (q : Option Request) : (d.withRequest t q).arbiter = d.arbiter := rfl
@[simp] theorem Device.withRequest_capture (d : Device) (t : ReqTag) (q : Option Request) : (d.withRequest t q).capture = d.capture := rfl
@[simp] theorem Device.withRequest_streams (d : Device) (t : ReqTag) (q : Option Request) : (d.withRequest t q).streams = d.streams := rfl
@[simp] theorem Device.withRequest_engine (d : Device) (t : ReqTag) (q : Option Request) : (d.withRequest t q).engine = d.engine := rfl
@[simp] theorem Device.withRequest_command (d : Device) (t : ReqTag) (q : Option Request) : (d.withRequest t q).command = d.command := rfl
@[simp] theorem Device.withRequest_report (d : Device) (t : ReqTag) (q : Option Request) : (d.withRequest t q).report = d.report := rfl
@[simp] theorem Device.withRequest_check (d : Device) (t : ReqTag) (q : Option Request) : (d.withRequest t q).check = d.check := rfl
@[simp] theorem Device.withRequest_notify (d : Device) (t : ReqTag) (q : Option Request) : (d.withRequest t q).notify = d.notify := rfl
@[simp] theorem Device.withRequest_responses (d : Device) (t : ReqTag) (q : Option Request) : (d.withRequest t q).responses = d.responses := rfl
@[simp] theorem Device.withRequest_sent (d : Device) (t : ReqTag) (q : Option Request) : (d.withRequest t q).sent = d.sent := rfl

@[simp] theorem Device.setRequestState_now (d : Device) (t : ReqTag) (st : RequestState) : (d.setRequestState t st).now = d.now := rfl
@[simp] theorem Device.setRequestState_winsel (d : Device) (t : ReqTag) (st : RequestState) : (d.setRequestState t st).winsel = d.winsel := rfl
@[simp] theorem Device.setRequestState_regions (d : Device) (t : ReqTag) (st : RequestState) : (d.setRequestState t st).regions = d.regions := rfl
@[simp] theorem Device.setRequestState_arbiter (d : Device) (t : ReqTag) (st : RequestState) : (d.setRequestState t st).arbiter = d.arbiter := rfl
@[simp] theorem Device.setRequestState_capture (d : Device) (t : ReqTag) (st : RequestState) : (d.setRequestState t st).capture = d.capture := rfl
@[simp] theorem Device.setRequestState_streams (d : Device) (t : ReqTag) (st : RequestState) : (d.setRequestState t st).streams = d.streams := rfl
@[simp] theorem Device.setRequestState_engine (d : Device) (t : ReqTag) (st : RequestState) : (d.setRequestState t st).engine = d.engine := rfl
@[simp] theorem Device.setRequestState_command (d : Device) (t : ReqTag) (st : RequestState) : (d.setRequestState t st).command = d.command := rfl
@[simp] theorem Device.setRequestState_report (d : Device) (t : ReqTag) (st : RequestState) : (d.setRequestState t st).report = d.report := rfl
@[simp] theorem Device.setRequestState_check (d : Device) (t : ReqTag) (st : RequestState) : (d.setRequestState t st).check = d.check := rfl
@[simp] theorem Device.setRequestState_notify (d : Device) (t : ReqTag) (st : RequestState) : (d.setRequestState t st).notify = d.notify := rfl
@[simp] theorem Device.setRequestState_responses (d : Device) (t : ReqTag) (st : RequestState) : (d.setRequestState t st).responses = d.responses := rfl
@[simp] theorem Device.setRequestState_sent (d : Device) (t : ReqTag) (st : RequestState) : (d.setRequestState t st).sent = d.sent := rfl

@[simp] theorem Device.withLock_now (d : Device) (a : Nat) (f : LineLock → LineLock) : (d.withLock a f).now = d.now := rfl
@[simp] theorem Device.withLock_winsel (d : Device) (a : Nat) (f : LineLock → LineLock) : (d.withLock a f).winsel = d.winsel := rfl
@[simp] theorem Device.withLock_regions (d : Device) (a : Nat) (f : LineLock → LineLock) : (d.withLock a f).regions = d.regions := rfl
@[simp] theorem Device.withLock_arbiter (d : Device) (a : Nat) (f : LineLock → LineLock) : (d.withLock a f).arbiter = d.arbiter := rfl
@[simp] theorem Device.withLock_capture (d : Device) (a : Nat) (f : LineLock → LineLock) : (d.withLock a f).capture = d.capture := rfl
@[simp] theorem Device.withLock_streams (d : Device) (a : Nat) (f : LineLock → LineLock) : (d.withLock a f).streams = d.streams := rfl
@[simp] theorem Device.withLock_engine (d : Device) (a : Nat) (f : LineLock → LineLock) : (d.withLock a f).engine = d.engine := rfl
@[simp] theorem Device.withLock_command (d : Device) (a : Nat) (f : LineLock → LineLock) : (d.withLock a f).command = d.command := rfl
@[simp] theorem Device.withLock_report (d : Device) (a : Nat) (f : LineLock → LineLock) : (d.withLock a f).report = d.report := rfl
@[simp] theorem Device.withLock_check (d : Device) (a : Nat) (f : LineLock → LineLock) : (d.withLock a f).check = d.check := rfl
@[simp] theorem Device.withLock_notify (d : Device) (a : Nat) (f : LineLock → LineLock) : (d.withLock a f).notify = d.notify := rfl
@[simp] theorem Device.withLock_responses (d : Device) (a : Nat) (f : LineLock → LineLock) : (d.withLock a f).responses = d.responses := rfl
@[simp] theorem Device.withLock_sent (d : Device) (a : Nat) (f : LineLock → LineLock) : (d.withLock a f).sent = d.sent := rfl

@[simp] theorem Device.withArbiter_now (d : Device) (f : Arbiter → Arbiter) : (d.withArbiter f).now = d.now := rfl
@[simp] theorem Device.withArbiter_winsel (d : Device) (f : Arbiter → Arbiter) : (d.withArbiter f).winsel = d.winsel := rfl
@[simp] theorem Device.withArbiter_regions (d : Device) (f : Arbiter → Arbiter) : (d.withArbiter f).regions = d.regions := rfl
@[simp] theorem Device.withArbiter_path (d : Device) (f : Arbiter → Arbiter) : (d.withArbiter f).path = d.path := rfl
@[simp] theorem Device.withArbiter_capture (d : Device) (f : Arbiter → Arbiter) : (d.withArbiter f).capture = d.capture := rfl
@[simp] theorem Device.withArbiter_streams (d : Device) (f : Arbiter → Arbiter) : (d.withArbiter f).streams = d.streams := rfl
@[simp] theorem Device.withArbiter_engine (d : Device) (f : Arbiter → Arbiter) : (d.withArbiter f).engine = d.engine := rfl
@[simp] theorem Device.withArbiter_command (d : Device) (f : Arbiter → Arbiter) : (d.withArbiter f).command = d.command := rfl
@[simp] theorem Device.withArbiter_report (d : Device) (f : Arbiter → Arbiter) : (d.withArbiter f).report = d.report := rfl
@[simp] theorem Device.withArbiter_check (d : Device) (f : Arbiter → Arbiter) : (d.withArbiter f).check = d.check := rfl
@[simp] theorem Device.withArbiter_notify (d : Device) (f : Arbiter → Arbiter) : (d.withArbiter f).notify = d.notify := rfl
@[simp] theorem Device.withArbiter_responses (d : Device) (f : Arbiter → Arbiter) : (d.withArbiter f).responses = d.responses := rfl
@[simp] theorem Device.withArbiter_sent (d : Device) (f : Arbiter → Arbiter) : (d.withArbiter f).sent = d.sent := rfl

@[simp] theorem Device.withCommand_now (d : Device) (f : CommandUnit → CommandUnit) : (d.withCommand f).now = d.now := rfl
@[simp] theorem Device.withCommand_winsel (d : Device) (f : CommandUnit → CommandUnit) : (d.withCommand f).winsel = d.winsel := rfl
@[simp] theorem Device.withCommand_regions (d : Device) (f : CommandUnit → CommandUnit) : (d.withCommand f).regions = d.regions := rfl
@[simp] theorem Device.withCommand_path (d : Device) (f : CommandUnit → CommandUnit) : (d.withCommand f).path = d.path := rfl
@[simp] theorem Device.withCommand_arbiter (d : Device) (f : CommandUnit → CommandUnit) : (d.withCommand f).arbiter = d.arbiter := rfl
@[simp] theorem Device.withCommand_capture (d : Device) (f : CommandUnit → CommandUnit) : (d.withCommand f).capture = d.capture := rfl
@[simp] theorem Device.withCommand_streams (d : Device) (f : CommandUnit → CommandUnit) : (d.withCommand f).streams = d.streams := rfl
@[simp] theorem Device.withCommand_engine (d : Device) (f : CommandUnit → CommandUnit) : (d.withCommand f).engine = d.engine := rfl
@[simp] theorem Device.withCommand_report (d : Device) (f : CommandUnit → CommandUnit) : (d.withCommand f).report = d.report := rfl
@[simp] theorem Device.withCommand_check (d : Device) (f : CommandUnit → CommandUnit) : (d.withCommand f).check = d.check := rfl
@[simp] theorem Device.withCommand_notify (d : Device) (f : CommandUnit → CommandUnit) : (d.withCommand f).notify = d.notify := rfl
@[simp] theorem Device.withCommand_responses (d : Device) (f : CommandUnit → CommandUnit) : (d.withCommand f).responses = d.responses := rfl
@[simp] theorem Device.withCommand_sent (d : Device) (f : CommandUnit → CommandUnit) : (d.withCommand f).sent = d.sent := rfl

@[simp] theorem Device.withReport_now (d : Device) (f : ReportUnit → ReportUnit) : (d.withReport f).now = d.now := rfl
@[simp] theorem Device.withReport_winsel (d : Device) (f : ReportUnit → ReportUnit) : (d.withReport f).winsel = d.winsel := rfl
@[simp] theorem Device.withReport_regions (d : Device) (f : ReportUnit → ReportUnit) : (d.withReport f).regions = d.regions := rfl
@[simp] theorem Device.withReport_path (d : Device) (f : ReportUnit → ReportUnit) : (d.withReport f).path = d.path := rfl
@[simp] theorem Device.withReport_arbiter (d : Device) (f : ReportUnit → ReportUnit) : (d.withReport f).arbiter = d.arbiter := rfl
@[simp] theorem Device.withReport_capture (d : Device) (f : ReportUnit → ReportUnit) : (d.withReport f).capture = d.capture := rfl
@[simp] theorem Device.withReport_streams (d : Device) (f : ReportUnit → ReportUnit) : (d.withReport f).streams = d.streams := rfl
@[simp] theorem Device.withReport_engine (d : Device) (f : ReportUnit → ReportUnit) : (d.withReport f).engine = d.engine := rfl
@[simp] theorem Device.withReport_command (d : Device) (f : ReportUnit → ReportUnit) : (d.withReport f).command = d.command := rfl
@[simp] theorem Device.withReport_check (d : Device) (f : ReportUnit → ReportUnit) : (d.withReport f).check = d.check := rfl
@[simp] theorem Device.withReport_notify (d : Device) (f : ReportUnit → ReportUnit) : (d.withReport f).notify = d.notify := rfl
@[simp] theorem Device.withReport_responses (d : Device) (f : ReportUnit → ReportUnit) : (d.withReport f).responses = d.responses := rfl
@[simp] theorem Device.withReport_sent (d : Device) (f : ReportUnit → ReportUnit) : (d.withReport f).sent = d.sent := rfl

@[simp] theorem Device.withCheck_now (d : Device) (f : CheckUnit → CheckUnit) : (d.withCheck f).now = d.now := rfl
@[simp] theorem Device.withCheck_winsel (d : Device) (f : CheckUnit → CheckUnit) : (d.withCheck f).winsel = d.winsel := rfl
@[simp] theorem Device.withCheck_regions (d : Device) (f : CheckUnit → CheckUnit) : (d.withCheck f).regions = d.regions := rfl
@[simp] theorem Device.withCheck_path (d : Device) (f : CheckUnit → CheckUnit) : (d.withCheck f).path = d.path := rfl
@[simp] theorem Device.withCheck_arbiter (d : Device) (f : CheckUnit → CheckUnit) : (d.withCheck f).arbiter = d.arbiter := rfl
@[simp] theorem Device.withCheck_capture (d : Device) (f : CheckUnit → CheckUnit) : (d.withCheck f).capture = d.capture := rfl
@[simp] theorem Device.withCheck_streams (d : Device) (f : CheckUnit → CheckUnit) : (d.withCheck f).streams = d.streams := rfl
@[simp] theorem Device.withCheck_engine (d : Device) (f : CheckUnit → CheckUnit) : (d.withCheck f).engine = d.engine := rfl
@[simp] theorem Device.withCheck_command (d : Device) (f : CheckUnit → CheckUnit) : (d.withCheck f).command = d.command := rfl
@[simp] theorem Device.withCheck_report (d : Device) (f : CheckUnit → CheckUnit) : (d.withCheck f).report = d.report := rfl
@[simp] theorem Device.withCheck_notify (d : Device) (f : CheckUnit → CheckUnit) : (d.withCheck f).notify = d.notify := rfl
@[simp] theorem Device.withCheck_responses (d : Device) (f : CheckUnit → CheckUnit) : (d.withCheck f).responses = d.responses := rfl
@[simp] theorem Device.withCheck_sent (d : Device) (f : CheckUnit → CheckUnit) : (d.withCheck f).sent = d.sent := rfl

@[simp] theorem Device.withEngine_now (d : Device) (f : Engine → Engine) : (d.withEngine f).now = d.now := rfl
@[simp] theorem Device.withEngine_winsel (d : Device) (f : Engine → Engine) : (d.withEngine f).winsel = d.winsel := rfl
@[simp] theorem Device.withEngine_regions (d : Device) (f : Engine → Engine) : (d.withEngine f).regions = d.regions := rfl
@[simp] theorem Device.withEngine_path (d : Device) (f : Engine → Engine) : (d.withEngine f).path = d.path := rfl
@[simp] theorem Device.withEngine_arbiter (d : Device) (f : Engine → Engine) : (d.withEngine f).arbiter = d.arbiter := rfl
@[simp] theorem Device.withEngine_capture (d : Device) (f : Engine → Engine) : (d.withEngine f).capture = d.capture := rfl
@[simp] theorem Device.withEngine_streams (d : Device) (f : Engine → Engine) : (d.withEngine f).streams = d.streams := rfl
@[simp] theorem Device.withEngine_command (d : Device) (f : Engine → Engine) : (d.withEngine f).command = d.command := rfl
@[simp] theorem Device.withEngine_report (d : Device) (f : Engine → Engine) : (d.withEngine f).report = d.report := rfl
@[simp] theorem Device.withEngine_check (d : Device) (f : Engine → Engine) : (d.withEngine f).check = d.check := rfl
@[simp] theorem Device.withEngine_notify (d : Device) (f : Engine → Engine) : (d.withEngine f).notify = d.notify := rfl
@[simp] theorem Device.withEngine_responses (d : Device) (f : Engine → Engine) : (d.withEngine f).responses = d.responses := rfl
@[simp] theorem Device.withEngine_sent (d : Device) (f : Engine → Engine) : (d.withEngine f).sent = d.sent := rfl

@[simp] theorem Device.withRegion_regions (d : Device) (r : RegionNo) (f : Region → Region) :
    (d.withRegion r f).regions = d.regions.set r (f (d.regions.get r)) := rfl
@[simp] theorem Device.withStream_streams (d : Device) (x : StreamNo) (f : Stream → Stream) :
    (d.withStream x f).streams = d.streams.set x (f (d.streams.get x)) := rfl
@[simp] theorem Device.withSlot_capture (d : Device) (k : SlotNo) (c : Option Slot) :
    (d.withSlot k c).capture = { d.capture with slots := d.capture.slots.set k c } := rfl
@[simp] theorem Device.withFilter_capture (d : Device) (l : List FilterEntry) :
    (d.withFilter l).capture = { d.capture with filter := l } := rfl
@[simp] theorem Device.withRequest_path (d : Device) (t : ReqTag) (q : Option Request) :
    (d.withRequest t q).path = { d.path with requests := d.path.requests.set t q } := rfl
@[simp] theorem Device.withArbiter_arbiter (d : Device) (f : Arbiter → Arbiter) :
    (d.withArbiter f).arbiter = f d.arbiter := rfl
@[simp] theorem Device.withCommand_command (d : Device) (f : CommandUnit → CommandUnit) :
    (d.withCommand f).command = f d.command := rfl
@[simp] theorem Device.withReport_report (d : Device) (f : ReportUnit → ReportUnit) :
    (d.withReport f).report = f d.report := rfl
@[simp] theorem Device.withCheck_check (d : Device) (f : CheckUnit → CheckUnit) : (d.withCheck f).check = f d.check := rfl
@[simp] theorem Device.withEngine_engine (d : Device) (f : Engine → Engine) : (d.withEngine f).engine = f d.engine := rfl

end Machine
end Sys2Proof
end

