-- ==== Sys2Proof/Laws/Answers.lean ====
section
/-! SUPPORT. What a message of the memory port comes to, and what a record presented for taking comes to, once: the cases of
`memoryAnswer` and of `takeRecord`. -/
namespace Sys2Proof.Machine

theorem issuedAt_tag {d : Device} {t : MemTag} {i : Issued} (h : issuedAt d t = some i) : i.tag = t := by
  simpa using List.find?_some h

theorem issuedAt_free {d : Device} {t : MemTag} (h : tagFree d t = true) : issuedAt d t = none := by
  simp only [tagFree, List.all_eq_true, bne_iff_ne] at h
  simpa [issuedAt] using h

/-- An answer of the right kind to an outstanding request that holds its own line (R29, R32). -/
theorem memoryAnswer_returned {d : Device} {t : MemTag} {r : PortRequest} {a : MemAnswer} (h : Outstanding d t r)
    (kind : wrongKind r a = false) (owns : r.job.releasesAtAnswer = true) :
    memoryAnswer t a d = tellJob r a (returned t r d) := by
  obtain ⟨i, h1, h2, rfl⟩ := h
  simp only [memoryAnswer, h1, h2, kind, answerIssued, owns, returned, issuedAt_tag h1, if_true, Bool.false_eq_true, if_false]

/-- The same for a request whose line is not released at its answer (R25, R74). -/
theorem memoryAnswer_kept {d : Device} {t : MemTag} {r : PortRequest} {a : MemAnswer} (h : Outstanding d t r)
    (kind : wrongKind r a = false) (owns : r.job.releasesAtAnswer = false) :
    memoryAnswer t a d = tellJob r a (freeTag t d) := by
  obtain ⟨i, h1, h2, rfl⟩ := h
  simp only [memoryAnswer, h1, h2, kind, answerIssued, owns, issuedAt_tag h1, Bool.false_eq_true, if_false]

/-- A head-line write that is over lets a waiting one that has not asked yet ask for its line (R143). -/
theorem headLineOver_asks {d : Device} (waits : d.command.headWaiting = true) (asked : d.command.headAsked = false) :
    headLineOver d = offer (writeOf .headLine (headLineAddress d) 0)
      { d with command := { d.command with headOutstanding := false, headAsked := true } } := by
  simp only [headLineOver, freeHeadLine, tryHeadLineWriteIssue, Device.withCommand, waits, asked, Bool.not_false, Bool.and_self,
    if_true, Option.getD_some]
  rfl

/-- With none to ask, it leaves its position and does nothing else (R143). -/
theorem headLineOver_quiet {d : Device} (none_asks : d.command.headWaiting = false ∨ d.command.headAsked = true) :
    headLineOver d = { d with command := { d.command with headOutstanding := false } } := by
  rcases none_asks with h | h <;>
    simp only [headLineOver, freeHeadLine, tryHeadLineWriteIssue, Device.withCommand, h, Bool.not_true, Bool.not_false,
      Bool.and_true, Bool.and_false, Bool.false_and, Bool.false_eq_true, if_false, Option.getD_none]

/-- The late answer to an abandoned head-line write (R30, R143). -/
theorem memoryAnswer_abandonedHeadLine {d : Device} {t : MemTag} {i : Issued} (a : MemAnswer) (h : issuedAt d t = some i)
    (abandoned : i.abandoned = true) (job : i.request.job = .headLine ∨ i.request.job = .lateHeadLine) :
    memoryAnswer t a d = headLineOver (returned t i.request d) := by
  rcases job with e | e <;> simp only [memoryAnswer, h, abandoned, answerAbandoned, e, returned, issuedAt_tag h, if_true]

/-- A message of the wrong kind (R31). -/
theorem memoryAnswer_wrongKind {d : Device} {t : MemTag} {r : PortRequest} {a : MemAnswer} (h : Outstanding d t r)
    (kind : wrongKind r a = true) : memoryAnswer t a d = deviceCheck .strayResponse .none d := by
  obtain ⟨i, h1, h2, rfl⟩ := h
  simp only [memoryAnswer, h1, h2, kind, strayAnswer, Bool.false_eq_true, if_false, if_true]

/-- A message under a free tag (R31). -/
theorem memoryAnswer_free {d : Device} {t : MemTag} (a : MemAnswer) (h : tagFree d t = true) :
    memoryAnswer t a d = deviceCheck .strayResponse .none d := by
  simp only [memoryAnswer, issuedAt_free h, strayAnswer]

/-- A record presented while it may be taken is executed (R143, R145). -/
theorem takeRecord_taking {d : Device} {h : CmdHead} (opcode : Nat) (run : Device → Device) (k : Taking d) :
    takeRecord h opcode run d = run (chained h d) := by
  have p : paused d = false := by
    simp only [paused, normal, k.state, occupancy, Config.crowdedQueue, Bool.or_eq_false_iff]
    exact ⟨rfl, decide_eq_false (Nat.not_le.mpr k.queue)⟩
  rcases k.running with c | c <;>
    simp only [takeRecord, p, c, ChainState.isWaiting, executing, chained, Device.withCommand, Bool.false_eq_true, or_self,
      if_false, reduceCtorEq]

/-- A slot in use stands at its number. -/
theorem slotsInUse_get {d : Device} {p : SlotNo × Slot} (h : p ∈ slotsInUse d) : d.capture.slots.get p.1 = some p.2 := by
  simp only [slotsInUse, List.mem_filterMap] at h
  obtain ⟨k, -, e⟩ := h
  cases c : d.capture.slots.get k with
  | none => simp [c] at e
  | some x =>
    simp only [c, Option.map_some, Option.some.injEq] at e
    rw [← e, c]

/-- The slot a write owns stands at its number, with the write as its owner. -/
theorem slotOwnedBy_get {d : Device} {t : ReqTag} {k : SlotNo} {c : Slot} (h : slotOwnedBy d t = some (k, c)) :
    d.capture.slots.get k = some c ∧ c.owner = some t :=
  ⟨slotsInUse_get (List.mem_of_find?_eq_some h), by simpa using List.find?_some h⟩

end Sys2Proof.Machine
end

