-- ==== Sys2Proof/Laws/Clear.lean ====
section
/-! SUPPORT. What the device clear's RETRY answers leave (R40): one lemma for one request, one for all of them. -/
namespace Sys2Proof.Machine

/-- The request under this tag waits for its answer and has not been forwarded. -/
def unforwarded (d : Device) (t : ReqTag) : Bool :=
  match d.path.requests.get t with
  | some q => !q.forwarded
  | none => false

/-- The request under this tag counts among the region's admitted ones (R4). -/
def admittedTo (d : Device) (r : RegionNo) (t : ReqTag) : Bool :=
  match d.path.requests.get t with
  | some q => q.covering == some r && q.state != .waitMode
  | none => false

/-- What answering the requests of `answered` RETRY has left of the device `d`. -/
structure Retried (answered : List ReqTag) (d e : Device) : Prop where
  requests : ∀ g, e.path.requests.get g = if g ∈ answered then none else d.path.requests.get g
  responses : e.responses = d.responses ++ answered.map fun g => (g, Response.retry)
  regions : ∀ r, e.regions.get r = { d.regions.get r with
    admitted := (d.regions.get r).admitted - (answered.filter (admittedTo d r)).length }
  rest : { e with path := d.path, responses := d.responses, regions := d.regions } = d
  counters : e.path.admissions = d.path.admissions ∧ e.path.fence = d.path.fence

theorem Retried.refl (d : Device) : Retried [] d d := ⟨by simp, by simp, fun _ => rfl, rfl, rfl, rfl⟩

/-- A change of lock state alone. -/
theorem Retried.lock {a : List ReqTag} {d e : Device} (h : Retried a d e) (line : Nat) (f : LineLock → LineLock) :
    Retried a d (e.withLock line f) :=
  ⟨h.requests, h.responses, h.regions, h.rest, h.counters⟩

/-- One more request answered RETRY. -/
theorem Retried.respond {a : List ReqTag} {d e : Device} {t : ReqTag} {q : Request} (h : Retried a d e)
    (hq : e.path.requests.get t = some q) : Retried (a ++ [t]) d (respond t .retry e) := by
  have hr : ∀ g, (e.path.requests.set t none).get g = if g ∈ a ++ [t] then none else d.path.requests.get g := by
    intro g
    by_cases c : t = g
    · subst c
      rw [Table.get_set]
      simp
    · rw [Table.get_set_of_ne _ c, h.requests g]
      simp [Ne.symm c]
  have hs : e.responses ++ [(t, Response.retry)] = d.responses ++ (a ++ [t]).map fun g => (g, Response.retry) := by
    rw [h.responses, List.map_append, List.append_assoc]
    rfl
  have hd : d.path.requests.get t = some q := by
    rw [h.requests t] at hq
    split at hq
    · cases hq
    · exact hq
  have adm : ∀ r, admittedTo d r t = (q.covering == some r && q.state != .waitMode) := fun r => by rw [admittedTo, hd]
  have same : ∀ r, admittedTo d r t = false → e.regions.get r = { d.regions.get r with
      admitted := (d.regions.get r).admitted - ((a ++ [t]).filter (admittedTo d r)).length } := fun r k => by
    rw [List.filter_append, List.filter_cons_of_neg (by simp [k]), List.filter_nil, List.append_nil]
    exact h.regions r
  unfold Machine.respond
  rw [hq]
  dsimp -proj only
  cases c : q.covering with
  | none => exact ⟨hr, hs, fun r => same r (by simp [adm, c]), h.rest, h.counters⟩
  | some r =>
    dsimp -proj only
    by_cases w : q.state = .waitMode
    · rw [if_pos (by simpa using w)]
      exact ⟨hr, hs, fun r => same r (by simp [adm, w]), h.rest, h.counters⟩
    · rw [if_neg (by simpa using w)]
      refine ⟨hr, hs, fun u => ?_, h.rest, h.counters⟩
      by_cases g : r = u
      · subst g
        show (e.regions.set r _).get r = _
        rw [Table.get_set]
        show { e.regions.get r with admitted := (e.regions.get r).admitted - 1 } = _
        have k : admittedTo d r t = true := by simp [adm, c, w]
        rw [h.regions r, List.filter_append, List.filter_cons_of_pos k, List.filter_nil, List.length_append]
        rfl
      · show (e.regions.set r _).get u = _
        rw [Table.get_set_of_ne _ g]
        exact same u (by simp [adm, c, g])

/-- One request of the device clear (R40). -/
theorem retryUnforwarded_retried {a : List ReqTag} {d e : Device} {t : ReqTag} (h : Retried a d e) (new : t ∉ a) :
    Retried (a ++ if unforwarded d t then [t] else []) d (retryUnforwarded e t) := by
  have hq := h.requests t
  rw [if_neg new] at hq
  unfold retryUnforwarded unforwarded
  rw [← hq]
  cases c : e.path.requests.get t with
  | none => simpa using h
  | some q =>
    have l : ∀ (line : Nat) (f : LineLock → LineLock), (e.withLock line f).path.requests.get t = some q := fun _ _ => c
    dsimp -proj only
    obtain ⟨u, hu⟩ : ∃ u, u = (if (!q.forwarded) = true then [t] else []) := ⟨_, rfl⟩
    rw [← hu]
    have keep : ∀ {st : RequestState}, q.state = st → (st = .ready ∨ st = .forwarded) → Retried (a ++ u) d e := by
      rintro st s (rfl | rfl) <;> simpa [Request.forwarded, s, hu] using h
    have go : ∀ {st : RequestState} {x : Device}, q.state = st → st ≠ .ready → st ≠ .forwarded →
        Retried (a ++ [t]) d x → Retried (a ++ u) d x := by
      intro st x s n1 n2 k
      rwa [hu, if_pos]
      simp [Request.forwarded, s, n1, n2]
    split
    · rename_i s
      exact go s (by simp) (by simp) (h.respond c)
    · rename_i s
      exact go s (by simp) (by simp) ((h.lock _ _).respond (l _ _))
    · rename_i s
      exact go s (by simp) (by simp) ((h.lock _ _).respond (l _ _))
    · rename_i s
      refine go s (by simp) (by simp) ?_
      unfold releaseHeld
      split
      · split
        · exact h.respond c
        · exact (h.lock _ _).respond (l _ _)
      · exact (h.lock _ _).respond (l _ _)
    · rename_i s
      exact keep s (.inl rfl)
    · rename_i s
      exact keep s (.inr rfl)

/-- All requests of the device clear, each tag once (R40). -/
theorem retryAll_retried (l : List ReqTag) {a : List ReqTag} {d e : Device} (h : Retried a d e) (once : (a ++ l).Nodup) :
    Retried (a ++ l.filter (unforwarded d)) d (l.foldl retryUnforwarded e) := by
  induction l generalizing a e with
  | nil => simpa using h
  | cons t l ih =>
    have new : t ∉ a := by
      rw [List.nodup_append] at once
      exact fun m => once.2.2 t m t (by simp) rfl
    have k := retryUnforwarded_retried h new
    rw [List.foldl_cons]
    by_cases c : unforwarded d t = true
    · rw [if_pos c] at k
      have g := ih k (by simpa using once)
      rw [List.filter_cons_of_pos c]
      simpa using g
    · rw [if_neg c, List.append_nil] at k
      rw [List.filter_cons_of_neg c]
      refine ih k ?_
      rw [List.nodup_append] at once ⊢
      exact ⟨once.1, (List.nodup_cons.mp once.2.1).2, fun x hx y hy => once.2.2 x hx y (List.mem_cons_of_mem _ hy)⟩

/-- The requests of the device clear (R40): all that were not forwarded, in ascending tag, and nothing else of the part but the
slot queue. -/
theorem retryAll_eq (d : Device) :
    Retried ((indices 64).filter (unforwarded d)) { d with capture := { d.capture with queue := [] } } (retryAll d) := by
  have e : unforwarded { d with capture := { d.capture with queue := [] } } = unforwarded d := rfl
  have h := retryAll_retried (indices 64) (Retried.refl { d with capture := { d.capture with queue := [] } })
    (List.nodup_finRange 64)
  rw [List.nil_append, e] at h
  exact h

/-- The device clear as one update of what its RETRY answers and its withdrawals leave (R168). -/
theorem deviceClear_eq (d : Device) : ∃ e, e = abandon Job.own (retryAll { d with regions := d.regions.map Region.cleared }) ∧
    deviceClear d = { e with
      arbiter := { e.arbiter with age := 0 }
      capture := Capture.cold
      streams := Table.fill 4 Stream.cold
      engine := Engine.cold
      command := e.command.cleared
      report := e.report.cleared
      check := e.check.cleared } := ⟨_, rfl, by unfold deviceClear; rfl⟩

end Sys2Proof.Machine
end

