-- ==== Sys2Proof/Laws/Keep.lean ====
section
/-! SUPPORT. What no operation of the part does but a grant of the memory port and a cold reset: one lemma per operation. -/
namespace Sys2Proof.Machine

/-- What a device `d` still has of the device `x` it came from: the straps, the messages sent, no tag more than before, the age
count within its bound, lock state in its one form, the answers given, the clock not set back. -/
structure Keep (x d : Device) : Prop where
  winsel : d.winsel = x.winsel
  sent : d.sent = x.sent
  tags : (tagsHeld d).Sublist (tagsHeld x)
  age : AgeBounded x → AgeBounded d
  locks : LockTable x → LockTable d
  responses : x.responses <+: d.responses
  now : x.now ≤ d.now

theorem Keep.refl (d : Device) : Keep d d :=
  ⟨rfl, rfl, List.Sublist.refl _, id, id, List.prefix_refl _, Nat.le_refl _⟩

theorem Keep.trans {x y z : Device} (h : Keep x y) (k : Keep y z) : Keep x z :=
  ⟨k.winsel.trans h.winsel, k.sent.trans h.sent, k.tags.trans h.tags, k.age ∘ h.age, k.locks ∘ h.locks,
   h.responses.trans k.responses, Nat.le_trans h.now k.now⟩

/-- A change of fields that `Keep` does not read. -/
theorem Keep.same {x d d' : Device} (h : Keep x d) (winsel : d'.winsel = d.winsel) (sent : d'.sent = d.sent)
    (issued : d'.arbiter.issued = d.arbiter.issued) (age : d'.arbiter.age = d.arbiter.age)
    (locks : d'.path.locks = d.path.locks) (responses : d'.responses = d.responses) (now : d'.now = d.now) : Keep x d' :=
  h.trans ⟨winsel, sent, by rw [tagsHeld, issued]; exact List.Sublist.refl _, by rw [AgeBounded, AgeBounded, age]; exact id,
    fun l => ⟨by rw [locks]; exact l.ascending, by rw [locks]; exact l.used⟩, by rw [responses],
    by rw [now]⟩

theorem Keep.foldl {α : Type} {x d : Device} (l : List α) {f : Device → α → Device} (h : Keep x d)
    (hf : ∀ d a, Keep x d → Keep x (f d a)) : Keep x (l.foldl f d) := by
  induction l generalizing d with
  | nil => exact h
  | cons a l ih => exact ih (hf d a h)

theorem Keep.getD {x d : Device} {o : Option Device} (h : Keep x d) (ho : ∀ d', o = some d' → Keep x d') :
    Keep x (o.getD d) := by
  cases o with
  | none => exact h
  | some d' => exact ho d' rfl

variable {x d : Device}

theorem withRegion_keep (h : Keep x d) (r : RegionNo) (f : Region → Region) : Keep x (d.withRegion r f) :=
  h.same rfl rfl rfl rfl rfl rfl rfl

theorem withStream_keep (h : Keep x d) (s : StreamNo) (f : Stream → Stream) : Keep x (d.withStream s f) :=
  h.same rfl rfl rfl rfl rfl rfl rfl

theorem withSlot_keep (h : Keep x d) (k : SlotNo) (c : Option Slot) : Keep x (d.withSlot k c) :=
  h.same rfl rfl rfl rfl rfl rfl rfl

theorem mapSlot_keep (h : Keep x d) (k : SlotNo) (f : Slot → Slot) : Keep x (d.mapSlot k f) :=
  h.same rfl rfl rfl rfl rfl rfl rfl

theorem withFilter_keep (h : Keep x d) (l : List FilterEntry) : Keep x (d.withFilter l) :=
  h.same rfl rfl rfl rfl rfl rfl rfl

theorem withRequest_keep (h : Keep x d) (t : ReqTag) (q : Option Request) : Keep x (d.withRequest t q) :=
  h.same rfl rfl rfl rfl rfl rfl rfl

theorem setRequestState_keep (h : Keep x d) (t : ReqTag) (st : RequestState) : Keep x (d.setRequestState t st) :=
  h.same rfl rfl rfl rfl rfl rfl rfl

theorem withCommand_keep (h : Keep x d) (f : CommandUnit → CommandUnit) : Keep x (d.withCommand f) :=
  h.same rfl rfl rfl rfl rfl rfl rfl

theorem withReport_keep (h : Keep x d) (f : ReportUnit → ReportUnit) : Keep x (d.withReport f) :=
  h.same rfl rfl rfl rfl rfl rfl rfl

theorem withCheck_keep (h : Keep x d) (f : CheckUnit → CheckUnit) : Keep x (d.withCheck f) :=
  h.same rfl rfl rfl rfl rfl rfl rfl

theorem withEngine_keep (h : Keep x d) (f : Engine → Engine) : Keep x (d.withEngine f) :=
  h.same rfl rfl rfl rfl rfl rfl rfl

theorem capture_keep (h : Keep x d) (c : Capture) : Keep x ({ d with capture := c }) :=
  h.same rfl rfl rfl rfl rfl rfl rfl

theorem regions_keep (h : Keep x d) (r : Table Region 16) : Keep x ({ d with regions := r }) :=
  h.same rfl rfl rfl rfl rfl rfl rfl

theorem waiting_keep (h : Keep x d) (w : List PortRequest) : Keep x ({ d with arbiter := { d.arbiter with waiting := w } }) :=
  h.same rfl rfl rfl rfl rfl rfl rfl

theorem withWaiting_keep (h : Keep x d) (f : List PortRequest → List PortRequest) : Keep x (d.withArbiter fun a => { a with waiting := f a.waiting }) :=
  h.same rfl rfl rfl rfl rfl rfl rfl

theorem fence_keep (h : Keep x d) (n : Nat) : Keep x ({ d with path := { d.path with fence := n } }) :=
  h.same rfl rfl rfl rfl rfl rfl rfl

theorem waitMode_keep (h : Keep x d) (w : List ReqTag) : Keep x ({ d with path := { d.path with waitMode := w } }) :=
  h.same rfl rfl rfl rfl rfl rfl rfl

theorem admissions_keep (h : Keep x d) (n : Nat) (w : List ReqTag) : Keep x ({ d with path := { d.path with admissions := n, waitMode := w } }) :=
  h.same rfl rfl rfl rfl rfl rfl rfl

/-! ### Line locks -/

theorem putLock_mem {l m : LineLock} {ls : List LineLock} (h : m ∈ putLock l ls) : m ∈ ls ∨ (m = l ∧ l.idle = false) := by
  induction ls with
  | nil => by_cases i : l.idle <;> simp_all [putLock]
  | cons y rest ih =>
    unfold putLock at h
    by_cases i : l.idle <;> (repeat' split at h) <;> simp_all <;> grind

theorem putLock_ascending {l : LineLock} {ls : List LineLock} (h : (ls.map (·.line)).Pairwise (· < ·)) :
    ((putLock l ls).map (·.line)).Pairwise (· < ·) := by
  induction ls with
  | nil => by_cases i : l.idle <;> simp [putLock, i]
  | cons y rest ih =>
    simp only [List.map_cons, List.pairwise_cons, List.mem_map, forall_exists_index, and_imp, forall_apply_eq_imp_iff₂] at h
    have hr := ih h.2
    unfold putLock
    split
    · simp only [List.map_cons, List.pairwise_cons, List.mem_map, forall_exists_index, and_imp, forall_apply_eq_imp_iff₂]
      refine ⟨fun m hm => ?_, hr⟩
      rcases putLock_mem hm with k | ⟨rfl, _⟩
      · exact h.1 m k
      · assumption
    · by_cases i : l.idle <;> (repeat' split) <;>
        simp_all only [List.map_cons, List.pairwise_cons, List.mem_map, List.mem_cons, forall_exists_index, and_imp,
          forall_apply_eq_imp_iff₂, forall_eq_or_imp] <;> grind

/-- Writing the lock of one line keeps the one form. -/
theorem LockTable.put {d d' : Device} {l : LineLock} (h : LockTable d) (e : d'.path.locks = putLock l d.path.locks) :
    LockTable d' where
  ascending := by rw [e]; exact putLock_ascending h.ascending
  used := by
    rw [e]
    intro m hm
    rcases putLock_mem hm with k | ⟨rfl, k⟩
    · exact h.used m k
    · exact k

theorem withLock_keep (h : Keep x d) (line : Nat) (f : LineLock → LineLock) : Keep x (d.withLock line f) :=
  h.trans ⟨rfl, rfl, List.Sublist.refl _, id, fun l => l.put rfl, List.prefix_refl _, Nat.le_refl _⟩

theorem releaseLine_keep (h : Keep x d) (line : Nat) : Keep x (releaseLine line d) := withLock_keep h _ _

theorem takeLine_keep (h : Keep x d) (line : Nat) (exclusive : Bool) : Keep x (takeLine line exclusive d) :=
  withLock_keep h _ _

theorem joinLine_keep (h : Keep x d) (line : Nat) (a : Asker) : Keep x (joinLine line a d) := withLock_keep h _ _

theorem leaveLine_keep (h : Keep x d) (line : Nat) (t : ReqTag) : Keep x (leaveLine line t d) := withLock_keep h _ _

theorem leaveQueues_keep (h : Keep x d) (p : Job → Bool) : Keep x (leaveQueues p d) := by
  refine h.trans ⟨rfl, rfl, List.Sublist.refl _, id, fun l => ⟨?_, ?_⟩, List.prefix_refl _, Nat.le_refl _⟩
  · refine List.Pairwise.sublist (List.Sublist.map _ List.filter_sublist) ?_
    rw [List.map_map]
    exact l.ascending
  · intro m hm
    simpa using (List.mem_filter.mp hm).2

/-! ### The memory port -/

theorem enterClass_keep (h : Keep x d) (r : PortRequest) : Keep x (enterClass r d) :=
  h.same rfl rfl rfl rfl rfl rfl rfl

theorem disown_keep (h : Keep x d) (p : Job → Bool) : Keep x (disown p d) := by
  refine h.trans ⟨rfl, rfl, ?_, id, fun l => ⟨l.ascending, l.used⟩, List.prefix_refl _, Nat.le_refl _⟩
  have e : tagsHeld (disown p d) = tagsHeld d := by
    simp only [tagsHeld, disown, Device.withArbiter, List.map_map]
    refine List.map_congr_left fun i _ => ?_
    simp only [Function.comp]
    split <;> rfl
  rw [e]

theorem discardLater_keep (h : Keep x d) (p : Job → Bool) : Keep x (discardLater p d) := by
  unfold discardLater
  apply disown_keep
  refine h.trans ⟨rfl, rfl, List.Sublist.refl _, id, fun l => ⟨?_, ?_⟩, List.prefix_refl _, Nat.le_refl _⟩
  · simp only [List.map_map]
    exact l.ascending
  · intro m hm
    obtain ⟨k, hk, rfl⟩ := List.mem_map.mp hm
    have := l.used k hk
    simpa [LineLock.idle] using this

theorem freeTag_keep (h : Keep x d) (t : MemTag) : Keep x (freeTag t d) :=
  h.trans ⟨rfl, rfl, List.Sublist.map _ List.filter_sublist, id, fun l => ⟨l.ascending, l.used⟩, List.prefix_refl _,
    Nat.le_refl _⟩

theorem respond_keep (h : Keep x d) (t : ReqTag) (answer : Response) : Keep x (respond t answer d) := by
  unfold respond
  split
  · exact h
  · refine h.trans ?_
    repeat' split
    all_goals exact ⟨rfl, rfl, List.Sublist.refl _, id, fun l => ⟨l.ascending, l.used⟩, List.prefix_append _ _, Nat.le_refl _⟩

theorem reach_keep (h : Keep x d) (moment : Nat) : Keep x (reach moment d) :=
  h.trans ⟨rfl, rfl, List.Sublist.refl _, id, fun l => ⟨l.ascending, l.used⟩, List.prefix_refl _, Nat.le_max_left _ _⟩

/-! ### One lemma per operation -/

theorem offer_keep (h : Keep x d) (r : PortRequest) : Keep x (offer r d) := by
  unfold offer
  try dsimp -proj only
  repeat' first | with_reducible exact h | with_reducible assumption | (intro) | with_reducible apply takeLine_keep | with_reducible apply joinLine_keep | with_reducible apply enterClass_keep | split

theorem offerAll_keep (h : Keep x d) (rs : List PortRequest) : Keep x (offerAll rs d) := by
  unfold offerAll
  try dsimp -proj only
  repeat' first | with_reducible exact h | with_reducible assumption | (intro) | with_reducible apply offer_keep | with_reducible apply Keep.foldl | split

theorem withdraw_keep (h : Keep x d) (p : Job → Bool) : Keep x (withdraw p d) := by
  unfold withdraw
  try dsimp -proj only
  repeat' first | with_reducible exact h | with_reducible assumption | (intro) | with_reducible apply withWaiting_keep | with_reducible apply releaseLine_keep | with_reducible apply leaveQueues_keep | with_reducible apply Keep.foldl | split

theorem abandon_keep (h : Keep x d) (p : Job → Bool) : Keep x (abandon p d) := by
  unfold abandon
  try dsimp -proj only
  repeat' first | with_reducible exact h | with_reducible assumption | (intro) | with_reducible apply withdraw_keep | with_reducible apply disown_keep | split

theorem forward_keep (h : Keep x d) (t : ReqTag) : Keep x (forward t d) := by
  unfold forward
  try dsimp -proj only
  repeat' first | with_reducible exact h | with_reducible assumption | (intro) | with_reducible apply setRequestState_keep | with_reducible apply enterClass_keep | split

theorem pushReport_keep (h : Keep x d) (r : Report) : Keep x (pushReport r d) := by
  unfold pushReport
  try dsimp -proj only
  repeat' first | with_reducible exact h | with_reducible assumption | (intro) | with_reducible apply withReport_keep | split

theorem mergeSummary_keep (h : Keep x d) : Keep x (mergeSummary d) := by
  unfold mergeSummary
  try dsimp -proj only
  repeat' first | with_reducible exact h | with_reducible assumption | (intro) | with_reducible apply withReport_keep | with_reducible apply pushReport_keep | split

theorem commandDone_keep (h : Keep x d) (r : Report) : Keep x (commandDone r d) := by
  unfold commandDone
  try dsimp -proj only
  repeat' first | with_reducible exact h | with_reducible assumption | (intro) | with_reducible apply withCommand_keep | with_reducible apply pushReport_keep | split

theorem streamDone_keep (h : Keep x d) (s : StreamNo) (r : Report) : Keep x (streamDone s r d) := by
  unfold streamDone
  try dsimp -proj only
  repeat' first | with_reducible exact h | with_reducible assumption | (intro) | with_reducible apply commandDone_keep | split

theorem valueMisuse_keep (h : Keep x d) (offset : Nat) (value : BitVec 64) : Keep x (valueMisuse offset value d) := by
  unfold valueMisuse
  try dsimp -proj only
  repeat' first | with_reducible exact h | with_reducible assumption | (intro) | with_reducible apply pushReport_keep | split

theorem tryHeadLineWriteIssue_keep {d' : Device} (h : Keep x d) (e : tryHeadLineWriteIssue d = some d') : Keep x d' := by
  unfold tryHeadLineWriteIssue at e
  try dsimp -proj only at e
  repeat' split at e
  all_goals first | cases e | skip
  all_goals repeat' first | with_reducible exact h | with_reducible assumption | (intro) | with_reducible apply withCommand_keep | with_reducible apply offer_keep | split

theorem offerHeadLine_keep (h : Keep x d) : Keep x (offerHeadLine d) := by
  unfold offerHeadLine
  try dsimp -proj only
  repeat' first | with_reducible exact h | with_reducible assumption | (intro) | with_reducible apply Keep.getD | with_reducible apply withCommand_keep | with_reducible refine tryHeadLineWriteIssue_keep ?_ (by assumption) | split

theorem offerAnchor_keep (h : Keep x d) (s : StreamNo) (o : Occasion) : Keep x (offerAnchor s o d) := by
  unfold offerAnchor
  try dsimp -proj only
  repeat' first | with_reducible exact h | with_reducible assumption | (intro) | with_reducible apply withStream_keep | split

theorem tryAnchorWriteIssue_keep {s : StreamNo} {d' : Device} (h : Keep x d) (e : tryAnchorWriteIssue s d = some d') :
    Keep x d' := by
  unfold tryAnchorWriteIssue at e
  dsimp -proj only at e
  cases hw : (d.streams.get s).anchorWaiting with
  | none => rw [hw] at e; cases e
  | some w =>
    rw [hw] at e
    dsimp -proj only at e
    by_cases c : anchorIssuable d (d.streams.get s) w = true
    · rw [if_pos c] at e
      obtain rfl := Option.some.inj e
      exact offerAll_keep (withStream_keep h _ _) _
    · rw [if_neg c] at e
      cases e

theorem releaseHeld_keep (h : Keep x d) (t : ReqTag) (line : Nat) : Keep x (releaseHeld t line d) := by
  unfold releaseHeld
  try dsimp -proj only
  repeat' first | with_reducible exact h | with_reducible assumption | (intro) | with_reducible apply releaseLine_keep | split

theorem retryUnforwarded_keep (h : Keep x d) (t : ReqTag) : Keep x (retryUnforwarded d t) := by
  unfold retryUnforwarded
  try dsimp -proj only
  repeat' first | with_reducible exact h | with_reducible assumption | (intro) | with_reducible apply releaseLine_keep | with_reducible apply leaveLine_keep | with_reducible apply respond_keep | with_reducible apply releaseHeld_keep | split

theorem cleared_keep (h : Keep x d) (capture : Capture) (streams : Table Stream 4) (engine : Engine)
    (command : CommandUnit) (report : ReportUnit) (check : CheckUnit) :
    Keep x { d with arbiter := { d.arbiter with age := 0 }, capture := capture, streams := streams, engine := engine,
                    command := command, report := report, check := check } :=
  h.trans ⟨rfl, rfl, List.Sublist.refl _, fun _ => Nat.zero_le _, fun l => ⟨l.ascending, l.used⟩,
    List.prefix_refl _, Nat.le_refl _⟩

theorem deviceClear_keep (h : Keep x d) : Keep x (deviceClear d) := by
  have h1 : Keep x { d with regions := d.regions.map Region.cleared } := regions_keep h _
  have h2 : Keep x ((indices 64).foldl retryUnforwarded
      { d with regions := d.regions.map Region.cleared, capture := { d.capture with queue := [] } }) :=
    Keep.foldl _ (capture_keep h1 _) fun _ t k => retryUnforwarded_keep k t
  unfold deviceClear
  dsimp -proj only
  refine cleared_keep (abandon_keep ?_ Job.own) _ _ _ _ _ _
  exact h2

theorem enterClose_keep (h : Keep x d) : Keep x (enterClose d) := by
  unfold enterClose
  try dsimp -proj only
  repeat' first | with_reducible exact h | with_reducible assumption | (intro) | with_reducible apply withCheck_keep | with_reducible apply offer_keep | with_reducible apply deviceClear_keep | split

theorem setInvalidation_keep (h : Keep x d) (s : StreamNo) (r : CheckResult) (g : InvalidateStage) : Keep x (setInvalidation s r g d) := by
  unfold setInvalidation
  try dsimp -proj only
  repeat' first | with_reducible exact h | with_reducible assumption | (intro) | with_reducible apply withCheck_keep | split

theorem offerInvalidation_keep (h : Keep x d) (s : StreamNo) : Keep x (offerInvalidation s d) := by
  unfold offerInvalidation
  try dsimp -proj only
  repeat' first | with_reducible exact h | with_reducible assumption | (intro) | with_reducible apply withStream_keep | with_reducible apply setInvalidation_keep | split

theorem startInvalidation_keep (h : Keep x d) (s : StreamNo) : Keep x (startInvalidation d s) := by
  unfold startInvalidation
  try dsimp -proj only
  repeat' first | with_reducible exact h | with_reducible assumption | (intro) | with_reducible apply withStream_keep | with_reducible apply setInvalidation_keep | with_reducible apply offerInvalidation_keep | split

theorem enterInvalidate_keep (h : Keep x d) : Keep x (enterInvalidate d) := by
  unfold enterInvalidate
  try dsimp -proj only
  repeat' first | with_reducible exact h | with_reducible assumption | (intro) | with_reducible apply withCheck_keep | with_reducible apply enterClose_keep | with_reducible apply startInvalidation_keep | with_reducible apply Keep.foldl | split

theorem invalidationEnd_keep (h : Keep x d) : Keep x (invalidationEnd d) := by
  unfold invalidationEnd
  try dsimp -proj only
  repeat' first | with_reducible exact h | with_reducible assumption | (intro) | with_reducible apply enterClose_keep | split

theorem enterRecord_keep (h : Keep x d) : Keep x (enterRecord d) := by
  unfold enterRecord
  try dsimp -proj only
  repeat' first | with_reducible exact h | with_reducible assumption | (intro) | with_reducible apply withCheck_keep | with_reducible apply offer_keep | with_reducible apply enterInvalidate_keep | split

theorem tryHoldSetDrained_keep {d' : Device} (h : Keep x d) (e : tryHoldSetDrained d = some d') : Keep x d' := by
  unfold tryHoldSetDrained at e
  try dsimp -proj only at e
  repeat' split at e
  all_goals first | cases e | skip
  all_goals repeat' first | with_reducible exact h | with_reducible assumption | (intro) | with_reducible apply enterRecord_keep | split

theorem beginHandling_keep (h : Keep x d) (cause : DeviceCause) (detail : CheckDetail) (loss : Option StreamNo) : Keep x (beginHandling cause detail loss d) := by
  unfold beginHandling
  try dsimp -proj only
  repeat' first | with_reducible exact h | with_reducible assumption | (intro) | with_reducible apply withCheck_keep | with_reducible apply withdraw_keep | with_reducible apply disown_keep | split

theorem noteSecond_keep (h : Keep x d) (cause : DeviceCause) (detail : CheckDetail) : Keep x (noteSecond cause detail d) := by
  unfold noteSecond
  try dsimp -proj only
  repeat' first | with_reducible exact h | with_reducible assumption | (intro) | with_reducible apply withCheck_keep | split

theorem abandonInvalidation_keep (h : Keep x d) (s : StreamNo) : Keep x (abandonInvalidation d s) := by
  unfold abandonInvalidation
  try dsimp -proj only
  repeat' first | with_reducible exact h | with_reducible assumption | (intro) | with_reducible apply withStream_keep | with_reducible apply abandon_keep | with_reducible apply setInvalidation_keep | split

theorem secondCheck_keep (h : Keep x d) (cause : DeviceCause) (detail : CheckDetail) : Keep x (secondCheck cause detail d) := by
  unfold secondCheck
  try dsimp -proj only
  repeat' first | with_reducible exact h | with_reducible assumption | (intro) | with_reducible apply abandon_keep | with_reducible apply enterClose_keep | with_reducible apply noteSecond_keep | with_reducible apply abandonInvalidation_keep | with_reducible apply Keep.foldl | split

theorem deviceCheckFor_keep (h : Keep x d) (loss : Option StreamNo) (cause : DeviceCause) (detail : CheckDetail) : Keep x (deviceCheckFor loss cause detail d) := by
  unfold deviceCheckFor
  try dsimp -proj only
  repeat' first | with_reducible exact h | with_reducible assumption | (intro) | with_reducible apply beginHandling_keep | with_reducible apply secondCheck_keep | split

theorem deviceCheck_keep (h : Keep x d) (cause : DeviceCause) (detail : CheckDetail) : Keep x (deviceCheck cause detail d) := by
  unfold deviceCheck
  try dsimp -proj only
  repeat' first | with_reducible exact h | with_reducible assumption | (intro) | with_reducible apply deviceCheckFor_keep | split

theorem judgeFaultAck_keep (h : Keep x d) (value : BitVec 64) : Keep x (judgeFaultAck value d) := by
  unfold judgeFaultAck
  try dsimp -proj only
  repeat' first | with_reducible exact h | with_reducible assumption | (intro) | with_reducible apply withCheck_keep | with_reducible apply valueMisuse_keep | split

theorem faultFirstAnswered_keep (h : Keep x d) : Keep x (faultFirstAnswered d) := by
  unfold faultFirstAnswered
  try dsimp -proj only
  repeat' first | with_reducible exact h | with_reducible assumption | (intro) | with_reducible apply enterInvalidate_keep | split

theorem faultClosingAnswered_keep (h : Keep x d) (done : Bool) : Keep x (faultClosingAnswered done d) := by
  unfold faultClosingAnswered
  try dsimp -proj only
  repeat' first | with_reducible exact h | with_reducible assumption | (intro) | with_reducible apply withCheck_keep | with_reducible apply deviceClear_keep | split

theorem removeEntries_keep (h : Keep x d) (p : FilterEntry → Bool) : Keep x (removeEntries p d) := by
  unfold removeEntries
  try dsimp -proj only
  repeat' first | with_reducible exact h | with_reducible assumption | (intro) | with_reducible apply mapSlot_keep | with_reducible apply withFilter_keep | with_reducible apply Keep.foldl | split

theorem removeStreamEntries_keep (h : Keep x d) (s : StreamNo) : Keep x (removeStreamEntries s d) := by
  unfold removeStreamEntries
  try dsimp -proj only
  repeat' first | with_reducible exact h | with_reducible assumption | (intro) | with_reducible apply removeEntries_keep | split

theorem removeSlotEntry_keep (h : Keep x d) (k : SlotNo) : Keep x (removeSlotEntry k d) := by
  unfold removeSlotEntry
  try dsimp -proj only
  repeat' first | with_reducible exact h | with_reducible assumption | (intro) | with_reducible apply removeEntries_keep | split

theorem enterFilter_keep (h : Keep x d) (k : SlotNo) (c : Slot) : Keep x (enterFilter k c d) := by
  unfold enterFilter
  try dsimp -proj only
  repeat' first | with_reducible exact h | with_reducible assumption | (intro) | with_reducible apply withStream_keep | with_reducible apply withFilter_keep | with_reducible apply pushReport_keep | split

theorem takeSlot_keep (h : Keep x d) (t : ReqTag) (k : SlotNo) : Keep x (takeSlot t k d) := by
  unfold takeSlot
  try dsimp -proj only
  repeat' first | with_reducible exact h | with_reducible assumption | (intro) | with_reducible apply withSlot_keep | with_reducible apply setRequestState_keep | with_reducible apply enterClass_keep | with_reducible apply enterFilter_keep | split

theorem trySlotQueueService_keep {k : SlotNo} {d' : Device} (h : Keep x d) (e : trySlotQueueService k d = some d') : Keep x d' := by
  unfold trySlotQueueService at e
  try dsimp -proj only at e
  repeat' split at e
  all_goals first | cases e | skip
  all_goals repeat' first | with_reducible exact h | with_reducible assumption | (intro) | with_reducible apply takeSlot_keep | with_reducible apply capture_keep | split

theorem freeSlot_keep (h : Keep x d) (k : SlotNo) : Keep x (freeSlot k d) := by
  unfold freeSlot
  try dsimp -proj only
  repeat' first | with_reducible exact h | with_reducible assumption | (intro) | with_reducible apply Keep.getD | with_reducible apply withSlot_keep | with_reducible refine trySlotQueueService_keep ?_ (by assumption) | split

theorem handToCapture_keep (h : Keep x d) (t : ReqTag) (line : Nat) : Keep x (handToCapture t line d) := by
  unfold handToCapture
  split
  · split
    · exact takeSlot_keep h _ _
    · exact (setRequestState_keep h t .waitSlot).same rfl rfl rfl rfl rfl rfl rfl
  · split
    · exact forward_keep h _
    · exact setRequestState_keep (mapSlot_keep h _ _) _ _

theorem answerOwner_keep (h : Keep x d) (owner : Option ReqTag) (line : Nat) (a : Response) : Keep x (answerOwner owner line a d) := by
  unfold answerOwner
  try dsimp -proj only
  repeat' first | with_reducible exact h | with_reducible assumption | (intro) | with_reducible apply releaseLine_keep | with_reducible apply respond_keep | split

theorem leavePositions_keep (h : Keep x d) (k : SlotNo) (s : StreamNo) : Keep x (leavePositions k s d) := by
  unfold leavePositions
  try dsimp -proj only
  repeat' first | with_reducible exact h | with_reducible assumption | (intro) | with_reducible apply withStream_keep | split

theorem cancelSlot_keep (h : Keep x d) (k : SlotNo) : Keep x (cancelSlot k d) := by
  unfold cancelSlot
  try dsimp -proj only
  repeat' first | with_reducible exact h | with_reducible assumption | (intro) | with_reducible apply withSlot_keep | with_reducible apply withdraw_keep | with_reducible apply respond_keep | with_reducible apply removeSlotEntry_keep | with_reducible apply freeSlot_keep | with_reducible apply answerOwner_keep | with_reducible apply leavePositions_keep | split

theorem captureFailure_keep (h : Keep x d) (k : SlotNo) (c : Slot) : Keep x (captureFailure k c d) := by
  unfold captureFailure
  try dsimp -proj only
  repeat' first | with_reducible exact h | with_reducible assumption | (intro) | with_reducible apply pushReport_keep | with_reducible apply removeSlotEntry_keep | with_reducible apply freeSlot_keep | with_reducible apply answerOwner_keep | split

theorem captureAnswered_keep (h : Keep x d) (k : SlotNo) (line : Nat) (a : MemAnswer) : Keep x (captureAnswered k line a d) := by
  unfold captureAnswered
  try dsimp -proj only
  repeat' first | with_reducible exact h | with_reducible assumption | (intro) | with_reducible apply withStream_keep | with_reducible apply withSlot_keep | with_reducible apply releaseLine_keep | with_reducible apply freeSlot_keep | with_reducible apply captureFailure_keep | split

theorem abandonedCaptureAnswered_keep (h : Keep x d) (k : SlotNo) (line : Nat) : Keep x (abandonedCaptureAnswered k line d) := by
  unfold abandonedCaptureAnswered
  try dsimp -proj only
  repeat' first | with_reducible exact h | with_reducible assumption | (intro) | with_reducible apply releaseLine_keep | with_reducible apply freeSlot_keep | split

theorem releaseSlot_keep (h : Keep x d) (p : SlotNo × Slot) : Keep x (releaseSlot d p) := by
  unfold releaseSlot
  try dsimp -proj only
  repeat' first | with_reducible exact h | with_reducible assumption | (intro) | with_reducible apply withFilter_keep | with_reducible apply forward_keep | with_reducible apply freeSlot_keep | split

theorem releaseCommitted_keep (h : Keep x d) (s : StreamNo) (committed : Nat) : Keep x (releaseCommitted s committed d) := by
  unfold releaseCommitted
  try dsimp -proj only
  repeat' first | with_reducible exact h | with_reducible assumption | (intro) | with_reducible apply releaseSlot_keep | with_reducible apply Keep.foldl | split

theorem loseWritingSlot_keep (h : Keep x d) (k : SlotNo) (c : Slot) : Keep x (loseWritingSlot k c d) := by
  unfold loseWritingSlot
  try dsimp -proj only
  repeat' first | with_reducible exact h | with_reducible assumption | (intro) | with_reducible apply withSlot_keep | with_reducible apply freeSlot_keep | split

theorem loseSlot_keep (h : Keep x d) (k : SlotNo) : Keep x (loseSlot k d) := by
  unfold loseSlot
  try dsimp -proj only
  repeat' first | with_reducible exact h | with_reducible assumption | (intro) | with_reducible apply freeSlot_keep | with_reducible apply answerOwner_keep | with_reducible apply cancelSlot_keep | with_reducible apply loseWritingSlot_keep | split

theorem loseWrite_keep (h : Keep x d) (s : StreamNo) (t : ReqTag) : Keep x (loseWrite s d t) := by
  unfold loseWrite
  try dsimp -proj only
  repeat' first | with_reducible exact h | with_reducible assumption | (intro) | with_reducible apply releaseLine_keep | with_reducible apply leaveLine_keep | with_reducible apply respond_keep | with_reducible apply loseSlot_keep | split

theorem leaveSlotQueue_keep (h : Keep x d) (s : StreamNo) : Keep x (leaveSlotQueue s d) := by
  unfold leaveSlotQueue
  try dsimp -proj only
  repeat' first | with_reducible exact h | with_reducible assumption | (intro) | with_reducible apply capture_keep | split

theorem loseCaptures_keep (h : Keep x d) (s : StreamNo) : Keep x (loseCaptures s d) := by
  unfold loseCaptures
  try dsimp -proj only
  repeat' first | with_reducible exact h | with_reducible assumption | (intro) | with_reducible apply withStream_keep | with_reducible apply removeStreamEntries_keep | with_reducible apply loseSlot_keep | with_reducible apply loseWrite_keep | with_reducible apply leaveSlotQueue_keep | with_reducible apply Keep.foldl | split

theorem retryWaitSlot_keep (h : Keep x d) (s : StreamNo) (t : ReqTag) : Keep x (retryWaitSlot s d t) := by
  unfold retryWaitSlot
  try dsimp -proj only
  repeat' first | with_reducible exact h | with_reducible assumption | (intro) | with_reducible apply releaseLine_keep | with_reducible apply respond_keep | split

theorem detachCaptures_keep (h : Keep x d) (s : StreamNo) : Keep x (detachCaptures s d) := by
  unfold detachCaptures
  try dsimp -proj only
  repeat' first | with_reducible exact h | with_reducible assumption | (intro) | with_reducible apply removeStreamEntries_keep | with_reducible apply cancelSlot_keep | with_reducible apply leaveSlotQueue_keep | with_reducible apply retryWaitSlot_keep | with_reducible apply Keep.foldl | split

theorem cancelWaitingSlots_keep (h : Keep x d) (s : StreamNo) : Keep x (cancelWaitingSlots s d) := by
  unfold cancelWaitingSlots
  try dsimp -proj only
  repeat' first | with_reducible exact h | with_reducible assumption | (intro) | with_reducible apply cancelSlot_keep | with_reducible apply Keep.foldl | split

theorem reportReached_keep (h : Keep x d) (r : RegionNo) (c : Change) (reached left : Mode) : Keep x (reportReached r c reached left d) := by
  unfold reportReached
  try dsimp -proj only
  repeat' first | with_reducible exact h | with_reducible assumption | (intro) | with_reducible apply pushReport_keep | split

theorem leaveJournal_keep (h : Keep x d) (r : RegionNo) (left : Mode) : Keep x (leaveJournal r left d) := by
  unfold leaveJournal
  try dsimp -proj only
  repeat' first | with_reducible exact h | with_reducible assumption | (intro) | with_reducible apply removeEntries_keep | split

theorem applyChange_keep (h : Keep x d) (r : RegionNo) : Keep x (applyChange r d) := by
  unfold applyChange
  try dsimp -proj only
  repeat' first | with_reducible exact h | with_reducible assumption | (intro) | with_reducible apply withRegion_keep | with_reducible apply reportReached_keep | with_reducible apply leaveJournal_keep | split

theorem tryModeChangeApplied_keep {r : RegionNo} {d' : Device} (h : Keep x d) (e : tryModeChangeApplied r d = some d') : Keep x d' := by
  unfold tryModeChangeApplied at e
  try dsimp -proj only at e
  repeat' split at e
  all_goals first | cases e | skip
  all_goals repeat' first | with_reducible exact h | with_reducible assumption | (intro) | with_reducible apply applyChange_keep | split

theorem testChange_keep (h : Keep x d) (r : RegionNo) : Keep x (testChange r d) := by
  unfold testChange
  try dsimp -proj only
  repeat' first | with_reducible exact h | with_reducible assumption | (intro) | with_reducible apply Keep.getD | with_reducible refine tryModeChangeApplied_keep ?_ (by assumption) | split

theorem supersede_keep (h : Keep x d) (r : RegionNo) (by_ : Nat) : Keep x (supersede r by_ d) := by
  unfold supersede
  try dsimp -proj only
  repeat' first | with_reducible exact h | with_reducible assumption | (intro) | with_reducible apply pushReport_keep | split

theorem internalChange_keep (h : Keep x d) (r : RegionNo) (m : Mode) : Keep x (internalChange r m d) := by
  unfold internalChange
  try dsimp -proj only
  repeat' first | with_reducible exact h | with_reducible assumption | (intro) | with_reducible apply withRegion_keep | with_reducible apply testChange_keep | with_reducible apply supersede_keep | split

theorem tryReturn_keep {r : RegionNo} {d' : Device} (h : Keep x d) (e : tryReturn r d = some d') : Keep x d' := by
  unfold tryReturn at e
  try dsimp -proj only at e
  repeat' split at e
  all_goals first | cases e | skip
  all_goals repeat' first | with_reducible exact h | with_reducible assumption | (intro) | with_reducible apply internalChange_keep | split

theorem acceptMode_keep (h : Keep x d) (r : RegionNo) (m : Mode) (tag : BitVec 16) : Keep x (acceptMode r m tag d) := by
  unfold acceptMode
  try dsimp -proj only
  repeat' first | with_reducible exact h | with_reducible assumption | (intro) | with_reducible apply withRegion_keep | with_reducible apply reportReached_keep | with_reducible apply testChange_keep | with_reducible apply supersede_keep | split

theorem degradeRegion_keep (h : Keep x d) (r : RegionNo) : Keep x (degradeRegion d r) := by
  unfold degradeRegion
  try dsimp -proj only
  repeat' first | with_reducible exact h | with_reducible assumption | (intro) | with_reducible apply withRegion_keep | with_reducible apply leaveJournal_keep | split

theorem degradeRegions_keep (h : Keep x d) (s : StreamNo) : Keep x (degradeRegions s d) := by
  unfold degradeRegions
  try dsimp -proj only
  repeat' first | with_reducible exact h | with_reducible assumption | (intro) | with_reducible apply degradeRegion_keep | with_reducible apply Keep.foldl | split

theorem endDegradation_keep (h : Keep x d) (s : StreamNo) (epoch : Nat) (r : RegionNo) : Keep x (endDegradation s epoch d r) := by
  unfold endDegradation
  try dsimp -proj only
  repeat' first | with_reducible exact h | with_reducible assumption | (intro) | with_reducible apply withRegion_keep | with_reducible apply pushReport_keep | split

theorem changeAfterDegradation_keep (h : Keep x d) (r : RegionNo) : Keep x (changeAfterDegradation d r) := by
  unfold changeAfterDegradation
  try dsimp -proj only
  repeat' first | with_reducible exact h | with_reducible assumption | (intro) | with_reducible apply withRegion_keep | with_reducible apply reportReached_keep | with_reducible apply testChange_keep | split

theorem endDegradations_keep (h : Keep x d) (s : StreamNo) (epoch : Nat) : Keep x (endDegradations s epoch d) := by
  unfold endDegradations
  try dsimp -proj only
  repeat' first | with_reducible exact h | with_reducible assumption | (intro) | with_reducible apply endDegradation_keep | with_reducible apply changeAfterDegradation_keep | with_reducible apply Keep.foldl | split

theorem holdRegion_keep (h : Keep x d) (r : RegionNo) : Keep x (holdRegion d r) := by
  unfold holdRegion
  try dsimp -proj only
  repeat' first | with_reducible exact h | with_reducible assumption | (intro) | with_reducible apply withRegion_keep | with_reducible apply internalChange_keep | split

theorem holdRegions_keep (h : Keep x d) (s : StreamNo) : Keep x (holdRegions s d) := by
  unfold holdRegions
  try dsimp -proj only
  repeat' first | with_reducible exact h | with_reducible assumption | (intro) | with_reducible apply holdRegion_keep | with_reducible apply Keep.foldl | split

theorem resumeRegion_keep (h : Keep x d) (r : RegionNo) : Keep x (resumeRegion d r) := by
  unfold resumeRegion
  try dsimp -proj only
  repeat' first | with_reducible exact h | with_reducible assumption | (intro) | with_reducible apply withRegion_keep | with_reducible apply internalChange_keep | split

theorem resumeRegions_keep (h : Keep x d) (s : StreamNo) : Keep x (resumeRegions s d) := by
  unfold resumeRegions
  try dsimp -proj only
  repeat' first | with_reducible exact h | with_reducible assumption | (intro) | with_reducible apply resumeRegion_keep | with_reducible apply Keep.foldl | split

theorem dropResume_keep (h : Keep x d) (s : StreamNo) : Keep x (dropResume s d) := by
  unfold dropResume
  try dsimp -proj only
  repeat' first | with_reducible exact h | with_reducible assumption | (intro) | with_reducible apply withRegion_keep | with_reducible apply Keep.foldl | split

theorem judgeRingSetup_keep (h : Keep x d) (v : BitVec 64) : Keep x (judgeRingSetup v d) := by
  unfold judgeRingSetup
  try dsimp -proj only
  repeat' first | with_reducible exact h | with_reducible assumption | (intro) | with_reducible apply withCommand_keep | with_reducible apply valueMisuse_keep | with_reducible apply offerHeadLine_keep | split

theorem judgeCommandTail_keep (h : Keep x d) (v : BitVec 64) (admission : Nat) :
    Keep x (judgeCommandTail v admission d) := by
  unfold judgeCommandTail
  split
  · exact (withCommand_keep h fun c => { c with tail := v.toNat }).same rfl rfl rfl rfl rfl rfl rfl
  · exact valueMisuse_keep h _ _

theorem judgeReportSetup_keep (h : Keep x d) (v : BitVec 64) : Keep x (judgeReportSetup v d) := by
  unfold judgeReportSetup
  try dsimp -proj only
  repeat' first | with_reducible exact h | with_reducible assumption | (intro) | with_reducible apply withReport_keep | with_reducible apply valueMisuse_keep | with_reducible apply offerHeadLine_keep | split

theorem judgeReportAck_keep (h : Keep x d) (v : BitVec 64) : Keep x (judgeReportAck v d) := by
  unfold judgeReportAck
  try dsimp -proj only
  repeat' first | with_reducible exact h | with_reducible assumption | (intro) | with_reducible apply withReport_keep | with_reducible apply valueMisuse_keep | split

theorem judgeWord_keep (h : Keep x d) (i : Fin 5) (v : BitVec 64) (admission : Nat) : Keep x (judgeWord i v admission d) := by
  unfold judgeWord
  try dsimp -proj only
  repeat' first | with_reducible exact h | with_reducible assumption | (intro) | with_reducible apply judgeFaultAck_keep | with_reducible apply judgeRingSetup_keep | with_reducible apply judgeCommandTail_keep | with_reducible apply judgeReportSetup_keep | with_reducible apply judgeReportAck_keep | split

theorem watchWord_keep (h : Keep x d) (mask : Mask) (data : Line) (admission : Nat) (i : Fin 5) : Keep x (watchWord mask data admission d i) := by
  unfold watchWord
  try dsimp -proj only
  repeat' first | with_reducible exact h | with_reducible assumption | (intro) | with_reducible apply pushReport_keep | with_reducible apply judgeWord_keep | split

theorem watchWindow_keep (h : Keep x d) (line : Nat) (mask : Mask) (data : Line) (admission : Nat) : Keep x (watchWindow line mask data admission d) := by
  unfold watchWindow
  try dsimp -proj only
  repeat' first | with_reducible exact h | with_reducible assumption | (intro) | with_reducible apply watchWord_keep | with_reducible apply Keep.foldl | split

theorem upstreamGranted_keep (h : Keep x d) (t : ReqTag) : Keep x (upstreamGranted t d) := by
  unfold upstreamGranted
  try dsimp -proj only
  repeat' first | with_reducible exact h | with_reducible assumption | (intro) | with_reducible apply forward_keep | with_reducible apply handToCapture_keep | split

theorem askUpstream_keep (h : Keep x d) (t : ReqTag) (q : Request) : Keep x (askUpstream t q d) := by
  unfold askUpstream
  try dsimp -proj only
  repeat' first | with_reducible exact h | with_reducible assumption | (intro) | with_reducible apply setRequestState_keep | with_reducible apply takeLine_keep | with_reducible apply joinLine_keep | with_reducible apply upstreamGranted_keep | split

theorem countAdmission_keep (h : Keep x d) (covering : Option RegionNo) : Keep x (countAdmission covering d) := by
  unfold countAdmission
  try dsimp -proj only
  repeat' first | with_reducible exact h | with_reducible assumption | (intro) | with_reducible apply withRegion_keep | split

/-- The device of an admission before the window watcher and the answer. -/
theorem admissions_keep' (h : Keep x d) (c : Option RegionNo) (t : ReqTag) (q : Option Request) (n : Nat)
    (w : List ReqTag) :
    Keep x { countAdmission c (d.withRequest t q) with
      path := { (countAdmission c (d.withRequest t q)).path with admissions := n, waitMode := w } } :=
  (countAdmission_keep (withRequest_keep h t q) c).same rfl rfl rfl rfl rfl rfl rfl

theorem admitRequest_keep (h : Keep x d) (t : ReqTag) : Keep x (admitRequest t d) := by
  unfold admitRequest
  cases hq : d.path.requests.get t with
  | none => exact h
  | some q =>
    dsimp -proj only
    have h1 := admissions_keep' h q.covering t
      (some { q with admission := some d.path.admissions, stream := admittedStream d q, state := .waitOrder })
      (d.path.admissions + 1)
    by_cases c : handlingMode d q.covering = .seal ∧ q.write = true
    · rw [if_pos c]
      apply respond_keep
      split
      · exact watchWindow_keep (h1 _) _ _ _ _
      · exact h1 _
    · rw [if_neg c]
      apply askUpstream_keep
      split
      · exact watchWindow_keep (h1 _) _ _ _ _
      · exact h1 _

theorem tryRequestAdmission_keep {r : RegionNo} {d' : Device} (h : Keep x d) (e : tryRequestAdmission r d = some d') : Keep x d' := by
  unfold tryRequestAdmission at e
  try dsimp -proj only at e
  repeat' split at e
  all_goals first | cases e | skip
  all_goals repeat' first | with_reducible exact h | with_reducible assumption | (intro) | with_reducible apply withRequest_keep | with_reducible apply admitRequest_keep | split

theorem acceptRequest_keep (h : Keep x d) (t : ReqTag) (write : Bool) (line : Nat) (mask : Mask) (data : Line) :
    Keep x (acceptRequest t write line mask data d) := by
  unfold acceptRequest
  split
  · split
    · exact pushReport_keep h _
    · exact h
  · dsimp -proj only
    have h1 := withRequest_keep h t (some ⟨write, line, mask, data, covering d line, none, none, d.now, .waitMode⟩)
    split
    · exact admitRequest_keep h1 t
    · exact h1.same rfl rfl rfl rfl rfl rfl rfl

theorem tryLineGrant_keep {line : Nat} {d' : Device} (h : Keep x d) (e : tryLineGrant line d = some d') : Keep x d' := by
  unfold tryLineGrant at e
  try dsimp -proj only at e
  repeat' split at e
  all_goals first | cases e | skip
  all_goals repeat' first | with_reducible exact h | with_reducible assumption | (intro) | with_reducible apply withLock_keep | with_reducible apply enterClass_keep | with_reducible apply upstreamGranted_keep | split

theorem dropFromSlotQueue_keep (h : Keep x d) (t : ReqTag) : Keep x (dropFromSlotQueue t d) := by
  unfold dropFromSlotQueue
  try dsimp -proj only
  repeat' first | with_reducible exact h | with_reducible assumption | (intro) | with_reducible apply capture_keep | split

theorem expireRequest_keep (h : Keep x d) (t : ReqTag) : Keep x (expireRequest t d) := by
  unfold expireRequest
  try dsimp -proj only
  repeat' first | with_reducible exact h | with_reducible assumption | (intro) | with_reducible apply mapSlot_keep | with_reducible apply releaseLine_keep | with_reducible apply leaveLine_keep | with_reducible apply respond_keep | with_reducible apply cancelSlot_keep | with_reducible apply dropFromSlotQueue_keep | split

theorem tryHoldLimitExpiry_keep {t : ReqTag} {d' : Device} (h : Keep x d) (e : tryHoldLimitExpiry t d = some d') : Keep x d' := by
  unfold tryHoldLimitExpiry at e
  try dsimp -proj only at e
  repeat' split at e
  all_goals first | cases e | skip
  all_goals repeat' first | with_reducible exact h | with_reducible assumption | (intro) | with_reducible apply expireRequest_keep | with_reducible apply reach_keep | split

theorem expireIfOver_keep (h : Keep x d) (t : ReqTag) : Keep x (expireIfOver d t) := by
  unfold expireIfOver
  try dsimp -proj only
  repeat' first | with_reducible exact h | with_reducible assumption | (intro) | with_reducible apply expireRequest_keep | split

theorem granted_keep (h : Keep x d) (r : PortRequest) : Keep x (granted r d) := by
  unfold granted
  try dsimp -proj only
  repeat' first | with_reducible exact h | with_reducible assumption | (intro) | with_reducible apply setRequestState_keep | with_reducible apply withCommand_keep | split

theorem pathStep_keep {d' : Device} (h : Keep x d) (e : pathStep d = some d') : Keep x d' := by
  unfold pathStep at e
  try dsimp -proj only at e
  repeat' split at e
  all_goals first | cases e | skip
  all_goals repeat' first | with_reducible exact h | with_reducible assumption | (intro) | with_reducible refine tryModeChangeApplied_keep ?_ (by assumption) | with_reducible refine tryReturn_keep ?_ (by assumption) | with_reducible refine tryRequestAdmission_keep ?_ (by assumption) | with_reducible refine tryLineGrant_keep ?_ (by assumption) | split

theorem pathSteps_keep (n : Nat) (h : Keep x d) : Keep x (pathSteps n d) := by
  induction n generalizing d with
  | zero => exact h
  | succ n ih =>
    unfold pathSteps
    split
    · exact h
    · exact ih (pathStep_keep h (by assumption))

theorem settlePath_keep (h : Keep x d) : Keep x (settlePath d) := pathSteps_keep _ h

theorem retireOldest_keep (h : Keep x d) (s : StreamNo) (cause : RetireCause) : Keep x (retireOldest s cause d) := by
  unfold retireOldest
  try dsimp -proj only
  repeat' first | with_reducible exact h | with_reducible assumption | (intro) | with_reducible apply withStream_keep | with_reducible apply pushReport_keep | split

theorem retireWhile_keep (p : MarkEntry → Bool) (s : StreamNo) (cause : RetireCause) (n : Nat) (h : Keep x d) :
    Keep x (retireWhile p s cause n d) := by
  induction n generalizing d with
  | zero => exact h
  | succ n ih =>
    unfold retireWhile
    split
    · split
      · exact ih (retireOldest_keep h _ _)
      · exact h
    · exact h

theorem testFreed_keep (h : Keep x d) (s : StreamNo) : Keep x (testFreed s d) := by
  unfold testFreed
  try dsimp -proj only
  repeat' first | with_reducible exact h | with_reducible assumption | (intro) | with_reducible apply withStream_keep | with_reducible apply pushReport_keep | with_reducible apply Keep.foldl | split

theorem commitMark_keep (h : Keep x d) (s : StreamNo) (m : PendingMark) (sequence : Nat) : Keep x (commitMark s m sequence d) := by
  unfold commitMark
  try dsimp -proj only
  repeat' first | with_reducible exact h | with_reducible assumption | (intro) | with_reducible apply withStream_keep | with_reducible apply offerAnchor_keep | with_reducible apply retireOldest_keep | split

theorem testMark_keep (h : Keep x d) (s : StreamNo) : Keep x (testMark s d) := by
  unfold testMark
  try dsimp -proj only
  repeat' first | with_reducible exact h | with_reducible assumption | (intro) | with_reducible apply commitMark_keep | split

theorem recordAcknowledged_keep (h : Keep x d) (s : StreamNo) (sequence : Nat) : Keep x (recordAcknowledged s sequence d) := by
  unfold recordAcknowledged
  try dsimp -proj only
  repeat' first | with_reducible exact h | with_reducible assumption | (intro) | with_reducible apply withStream_keep | with_reducible apply releaseCommitted_keep | with_reducible apply testFreed_keep | with_reducible apply testMark_keep | split

theorem fetchDescriptor_keep (h : Keep x d) (s : StreamNo) (address : Nat) : Keep x (fetchDescriptor s address d) := by
  unfold fetchDescriptor
  try dsimp -proj only
  repeat' first | with_reducible exact h | with_reducible assumption | (intro) | with_reducible apply withStream_keep | with_reducible apply offer_keep | split

theorem fetchFollowing_keep (h : Keep x d) (s : StreamNo) : Keep x (fetchFollowing s d) := by
  unfold fetchFollowing
  try dsimp -proj only
  repeat' first | with_reducible exact h | with_reducible assumption | (intro) | with_reducible apply withStream_keep | with_reducible apply fetchDescriptor_keep | split

theorem detachStream_keep (h : Keep x d) (s : StreamNo) : Keep x (detachStream s d) := by
  unfold detachStream
  try dsimp -proj only
  repeat' first | with_reducible exact h | with_reducible assumption | (intro) | with_reducible apply withStream_keep | split

theorem engineFails_keep (h : Keep x d) (s : StreamNo) : Keep x (engineFails s d) := by
  unfold engineFails
  try dsimp -proj only
  repeat' first | with_reducible exact h | with_reducible assumption | (intro) | with_reducible apply withEngine_keep | with_reducible apply abandon_keep | with_reducible apply dropResume_keep | split

theorem failOperations_keep {y : Device} (h : Keep y d) (s : StreamNo) (x : Stream) (g : Engine) (cause : Cause) (sequence address : Nat) : Keep y (failOperations s x g cause sequence address d) := by
  unfold failOperations
  try dsimp -proj only
  repeat' first | with_reducible exact h | with_reducible assumption | (intro) | with_reducible apply withStream_keep | with_reducible apply streamDone_keep | split

theorem loseStream_keep (h : Keep x d) (s : StreamNo) (cause : Cause) (broken : Bool) (sequence address : Nat) : Keep x (loseStream s cause broken sequence address d) := by
  unfold loseStream
  try dsimp -proj only
  repeat' first | with_reducible exact h | with_reducible assumption | (intro) | with_reducible apply withStream_keep | with_reducible apply discardLater_keep | with_reducible apply abandon_keep | with_reducible apply pushReport_keep | with_reducible apply loseCaptures_keep | with_reducible apply degradeRegions_keep | with_reducible apply engineFails_keep | with_reducible apply failOperations_keep | split

theorem abandonAttach_keep (h : Keep x d) (s : StreamNo) : Keep x (abandonAttach s d) := by
  unfold abandonAttach
  try dsimp -proj only
  repeat' first | with_reducible exact h | with_reducible assumption | (intro) | with_reducible apply withStream_keep | with_reducible apply abandon_keep | split

theorem endAttach_keep (h : Keep x d) (s : StreamNo) (status : Status) (second sequence address : Nat) : Keep x (endAttach s status second sequence address d) := by
  unfold endAttach
  try dsimp -proj only
  repeat' first | with_reducible exact h | with_reducible assumption | (intro) | with_reducible apply withEngine_keep | with_reducible apply streamDone_keep | with_reducible apply dropResume_keep | with_reducible apply detachStream_keep | with_reducible apply abandonAttach_keep | split

theorem dropFault_keep (h : Keep x d) (s : StreamNo) : Keep x (dropFault s d) := by
  unfold dropFault
  dsimp -proj only
  split
  · exact withStream_keep (abandonAttach_keep h s) s _
  · exact h

theorem streamFault_keep (h : Keep x d) (s : StreamNo) (cause : Cause) (sequence address : Nat) : Keep x (streamFault s cause sequence address d) := by
  unfold streamFault
  try dsimp -proj only
  repeat' first | with_reducible exact h | with_reducible assumption | (intro) | with_reducible apply pushReport_keep | with_reducible apply loseStream_keep | with_reducible apply endAttach_keep | with_reducible apply dropFault_keep | split

theorem placeSlot_keep (h : Keep x d) (s : StreamNo) (k : SlotNo) (c : Slot) (sequence address : Nat) : Keep x (placeSlot s k c sequence address d) := by
  unfold placeSlot
  try dsimp -proj only
  repeat' first | with_reducible exact h | with_reducible assumption | (intro) | with_reducible apply withStream_keep | with_reducible apply withSlot_keep | with_reducible apply offerAll_keep | with_reducible apply leavePositions_keep | split

theorem placeMark_keep (h : Keep x d) (s : StreamNo) (m : PendingMark) (sequence address : Nat) : Keep x (placeMark s m sequence address d) := by
  unfold placeMark
  try dsimp -proj only
  repeat' first | with_reducible exact h | with_reducible assumption | (intro) | with_reducible apply withStream_keep | with_reducible apply offerAll_keep | split

theorem placeAt_keep (h : Keep x d) (s : StreamNo) (p : Placeable) (sequence address : Nat) : Keep x (placeAt s p sequence address d) := by
  unfold placeAt
  try dsimp -proj only
  repeat' first | with_reducible exact h | with_reducible assumption | (intro) | with_reducible apply leavePositions_keep | with_reducible apply placeSlot_keep | with_reducible apply placeMark_keep | split

theorem forcedRetirement_keep (h : Keep x d) (s : StreamNo) : Keep x (forcedRetirement s d) := by
  unfold forcedRetirement
  dsimp -proj only
  split
  · exact withStream_keep (retireWhile_keep _ _ _ _ h) _ _
  · exact h

theorem enterSegment_keep (h : Keep x d) (s : StreamNo) (address : Nat) (c : Descriptor) : Keep x (enterSegment s address c d) := by
  unfold enterSegment
  try dsimp -proj only
  repeat' first | with_reducible exact h | with_reducible assumption | (intro) | with_reducible apply withStream_keep | with_reducible apply offerAnchor_keep | with_reducible apply forcedRetirement_keep | split

theorem cancelPlaceable_keep (h : Keep x d) (p : Placeable) : Keep x (cancelPlaceable p d) := by
  unfold cancelPlaceable
  try dsimp -proj only
  repeat' first | with_reducible exact h | with_reducible assumption | (intro) | with_reducible apply cancelSlot_keep | split

theorem exhaust_keep (h : Keep x d) (s : StreamNo) : Keep x (exhaust s d) := by
  unfold exhaust
  try dsimp -proj only
  repeat' first | with_reducible exact h | with_reducible assumption | (intro) | with_reducible apply withStream_keep | with_reducible apply pushReport_keep | split

theorem runOut_keep {s : StreamNo} {p : Placeable} {d' : Device} (h : Keep x d) (e : runOut s p d = some d') : Keep x d' := by
  unfold runOut at e
  dsimp -proj only at e
  repeat' split at e
  · obtain rfl := Option.some.inj e; exact exhaust_keep h _
  · obtain rfl := Option.some.inj e; exact loseStream_keep h _ _ _ _ _
  · obtain rfl := Option.some.inj e; exact cancelPlaceable_keep h _
  · cases e

theorem needSegment_keep {s : StreamNo} {p : Placeable} {c : CurrentSegment} {d' : Device} (h : Keep x d) (e : needSegment s p c d = some d') : Keep x d' := by
  unfold needSegment at e
  try dsimp -proj only at e
  repeat' split at e
  all_goals first | cases e | skip
  all_goals repeat' first | with_reducible exact h | with_reducible assumption | (intro) | with_reducible apply enterSegment_keep | with_reducible refine runOut_keep ?_ (by assumption) | split

theorem sequenceLimitMet_keep (h : Keep x d) (s : StreamNo) (p : Placeable) : Keep x (sequenceLimitMet s p d) := by
  unfold sequenceLimitMet
  try dsimp -proj only
  repeat' first | with_reducible exact h | with_reducible assumption | (intro) | with_reducible apply loseStream_keep | with_reducible apply cancelPlaceable_keep | split

theorem tryRecordPlacement_keep {s : StreamNo} {d' : Device} (h : Keep x d) (e : tryRecordPlacement s d = some d') : Keep x d' := by
  unfold tryRecordPlacement at e
  try dsimp -proj only at e
  repeat' split at e
  all_goals first | cases e | skip
  all_goals repeat' first | with_reducible exact h | with_reducible assumption | (intro) | with_reducible apply placeAt_keep | with_reducible refine needSegment_keep ?_ (by assumption) | with_reducible apply sequenceLimitMet_keep | split

theorem slotRecordAnswered_keep (h : Keep x d) (k : SlotNo) (line : Nat) (a : MemAnswer) : Keep x (slotRecordAnswered k line a d) := by
  unfold slotRecordAnswered
  try dsimp -proj only
  repeat' first | with_reducible exact h | with_reducible assumption | (intro) | with_reducible apply withSlot_keep | with_reducible apply freeSlot_keep | with_reducible apply recordAcknowledged_keep | with_reducible apply streamFault_keep | split

theorem markRecordAnswered_keep (h : Keep x d) (s : StreamNo) (a : MemAnswer) : Keep x (markRecordAnswered s a d) := by
  unfold markRecordAnswered
  try dsimp -proj only
  repeat' first | with_reducible exact h | with_reducible assumption | (intro) | with_reducible apply withStream_keep | with_reducible apply recordAcknowledged_keep | with_reducible apply streamFault_keep | split

theorem extensionDone_keep (h : Keep x d) (s : StreamNo) (e : Extension) (target : Nat) : Keep x (extensionDone s e target d) := by
  unfold extensionDone
  try dsimp -proj only
  repeat' first | with_reducible exact h | with_reducible assumption | (intro) | with_reducible apply withStream_keep | with_reducible apply streamDone_keep | split

theorem leaveExhaustion_keep (h : Keep x d) (s : StreamNo) : Keep x (leaveExhaustion s d) := by
  unfold leaveExhaustion
  try dsimp -proj only
  repeat' first | with_reducible exact h | with_reducible assumption | (intro) | with_reducible apply Keep.getD | with_reducible apply withStream_keep | with_reducible refine tryRecordPlacement_keep ?_ (by assumption) | split

theorem descriptorHeld_keep (h : Keep x d) (s : StreamNo) (address : Nat) (c : Descriptor) : Keep x (descriptorHeld s address c d) := by
  unfold descriptorHeld
  try dsimp -proj only
  repeat' first | with_reducible exact h | with_reducible assumption | (intro) | with_reducible apply withStream_keep | with_reducible apply extensionDone_keep | with_reducible apply leaveExhaustion_keep | split

theorem descriptorAnswered_keep (h : Keep x d) (s : StreamNo) (a : MemAnswer) : Keep x (descriptorAnswered s a d) := by
  unfold descriptorAnswered
  try dsimp -proj only
  repeat' first | with_reducible exact h | with_reducible assumption | (intro) | with_reducible apply streamFault_keep | with_reducible apply descriptorHeld_keep | split

theorem startUpdate_keep (h : Keep x d) (s : StreamNo) (current : Bool) (target : Nat) : Keep x (startUpdate s current target d) := by
  unfold startUpdate
  try dsimp -proj only
  repeat' first | with_reducible exact h | with_reducible assumption | (intro) | with_reducible apply withStream_keep | with_reducible apply offer_keep | split

theorem chooseTarget_keep (h : Keep x d) (s : StreamNo) (e : Extension) : Keep x (chooseTarget s e d) := by
  unfold chooseTarget
  try dsimp -proj only
  repeat' first | with_reducible exact h | with_reducible assumption | (intro) | with_reducible apply withStream_keep | with_reducible apply streamDone_keep | with_reducible apply startUpdate_keep | split

theorem tryExtendTargetChoice_keep {s : StreamNo} {d' : Device} (h : Keep x d) (e : tryExtendTargetChoice s d = some d') : Keep x d' := by
  unfold tryExtendTargetChoice at e
  try dsimp -proj only at e
  repeat' split at e
  all_goals first | cases e | skip
  all_goals repeat' first | with_reducible exact h | with_reducible assumption | (intro) | with_reducible apply chooseTarget_keep | split

theorem updateReadAnswered_keep (h : Keep x d) (s : StreamNo) (line : Nat) (a : MemAnswer) : Keep x (updateReadAnswered s line a d) := by
  unfold updateReadAnswered
  try dsimp -proj only
  repeat' first | with_reducible exact h | with_reducible assumption | (intro) | with_reducible apply releaseLine_keep | with_reducible apply enterClass_keep | with_reducible apply streamFault_keep | split

theorem updateWriteAnswered_keep (h : Keep x d) (s : StreamNo) (a : MemAnswer) : Keep x (updateWriteAnswered s a d) := by
  unfold updateWriteAnswered
  try dsimp -proj only
  repeat' first | with_reducible exact h | with_reducible assumption | (intro) | with_reducible apply withStream_keep | with_reducible apply fetchDescriptor_keep | with_reducible apply streamFault_keep | with_reducible apply extensionDone_keep | split

theorem tryStallLimitExpiry_keep {s : StreamNo} {d' : Device} (h : Keep x d) (e : tryStallLimitExpiry s d = some d') :
    Keep x d' := by
  unfold tryStallLimitExpiry at e
  dsimp -proj only at e
  split at e
  · obtain rfl := Option.some.inj e; exact loseStream_keep (reach_keep h _) _ _ _ _ _
  · cases e

theorem tryDetachFinalAnchor_keep {s : StreamNo} {d' : Device} (h : Keep x d) (e : tryDetachFinalAnchor s d = some d') : Keep x d' := by
  unfold tryDetachFinalAnchor at e
  try dsimp -proj only at e
  repeat' split at e
  all_goals first | cases e | skip
  all_goals repeat' first | with_reducible exact h | with_reducible assumption | (intro) | with_reducible apply offerAnchor_keep | split

theorem takeRollback_keep (h : Keep x d) (s : StreamNo) (tag : BitVec 16) (m : MarkEntry) : Keep x (takeRollback s tag m d) := by
  unfold takeRollback
  try dsimp -proj only
  repeat' first | with_reducible exact h | with_reducible assumption | (intro) | with_reducible apply withStream_keep | with_reducible apply withEngine_keep | with_reducible apply cancelWaitingSlots_keep | with_reducible apply holdRegions_keep | split

theorem tryEngineClaimHandoff_keep {d' : Device} (h : Keep x d) (e : tryEngineClaimHandoff d = some d') : Keep x d' := by
  unfold tryEngineClaimHandoff at e
  try dsimp -proj only at e
  repeat' split at e
  all_goals first | cases e | skip
  all_goals repeat' first | with_reducible exact h | with_reducible assumption | (intro) | with_reducible apply withStream_keep | with_reducible apply withEngine_keep | split

theorem claimEngine_keep (h : Keep x d) (s : StreamNo) : Keep x (claimEngine s d) := by
  unfold claimEngine
  try dsimp -proj only
  repeat' first | with_reducible exact h | with_reducible assumption | (intro) | with_reducible apply Keep.getD | with_reducible apply withEngine_keep | with_reducible refine tryEngineClaimHandoff_keep ?_ (by assumption) | split

theorem refillWindow_keep (n : Nat) (s : StreamNo) (h : Keep x d) : Keep x (refillWindow n s d) := by
  induction n generalizing d with
  | zero => exact h
  | succ n ih =>
    unfold refillWindow
    dsimp -proj only
    split
    · split
      · exact ih (offerAll_keep (withEngine_keep h _) _)
      · exact h
    · exact h

theorem popRecord_keep (h : Keep x d) : Keep x (popRecord d) := by
  unfold popRecord
  try dsimp -proj only
  repeat' first | with_reducible exact h | with_reducible assumption | (intro) | with_reducible apply withEngine_keep | split

theorem processRecord_keep {header image : Line} {pointer m : Nat} {d' : Device} (h : Keep x d) (e : processRecord header image pointer m d = some d') : Keep x d' := by
  unfold processRecord at e
  try dsimp -proj only at e
  repeat' split at e
  all_goals first | cases e | skip
  all_goals repeat' first | with_reducible exact h | with_reducible assumption | (intro) | with_reducible apply withEngine_keep | with_reducible apply offer_keep | with_reducible apply popRecord_keep | split

theorem processWindow_keep (n : Nat) (s : StreamNo) (h : Keep x d) : Keep x (processWindow n s d) := by
  induction n generalizing d with
  | zero => exact h
  | succ n ih =>
    unfold processWindow
    repeat' split
    · exact streamFault_keep h _ _ _ _
    · exact ih (refillWindow_keep _ _ (processRecord_keep h (by assumption)))
    all_goals exact h

theorem enterFinalAnchor_keep (h : Keep x d) (s : StreamNo) : Keep x (enterFinalAnchor s d) := by
  unfold enterFinalAnchor
  try dsimp -proj only
  repeat' first | with_reducible exact h | with_reducible assumption | (intro) | with_reducible apply withEngine_keep | with_reducible apply offerAnchor_keep | split

theorem truncate_keep (h : Keep x d) (s : StreamNo) (m e : Nat) : Keep x (truncate s m e d) := by
  unfold truncate
  try dsimp -proj only
  repeat' first | with_reducible exact h | with_reducible assumption | (intro) | with_reducible apply withStream_keep | with_reducible apply withEngine_keep | with_reducible apply offer_keep | with_reducible apply abandon_keep | with_reducible apply removeStreamEntries_keep | with_reducible apply enterFinalAnchor_keep | split

theorem testWalkEnd_keep (h : Keep x d) (s : StreamNo) : Keep x (testWalkEnd s d) := by
  unfold testWalkEnd
  try dsimp -proj only
  repeat' first | with_reducible exact h | with_reducible assumption | (intro) | with_reducible apply truncate_keep | split

theorem walk_keep (h : Keep x d) (s : StreamNo) : Keep x (walk s d) := testWalkEnd_keep (processWindow_keep _ _ h) _

theorem enterRestoring_keep (h : Keep x d) (s : StreamNo) : Keep x (enterRestoring s d) :=
  refillWindow_keep _ _ (withEngine_keep h _)

theorem tryHoldingEnd_keep {d' : Device} (h : Keep x d) (e : tryHoldingEnd d = some d') : Keep x d' := by
  unfold tryHoldingEnd at e
  try dsimp -proj only at e
  repeat' split at e
  all_goals first | cases e | skip
  all_goals repeat' first | with_reducible exact h | with_reducible assumption | (intro) | with_reducible apply withEngine_keep | with_reducible apply offerAnchor_keep | split

theorem tryResumedHoldingEnd_keep {d' : Device} (h : Keep x d) (e : tryResumedHoldingEnd d = some d') : Keep x d' := by
  unfold tryResumedHoldingEnd at e
  try dsimp -proj only at e
  repeat' split at e
  all_goals first | cases e | skip
  all_goals repeat' first | with_reducible exact h | with_reducible assumption | (intro) | with_reducible apply enterRestoring_keep | split

theorem journalReadAnswered_keep (h : Keep x d) (sequence : Nat) (image : Bool) (a : MemAnswer) : Keep x (journalReadAnswered sequence image a d) := by
  unfold journalReadAnswered
  try dsimp -proj only
  repeat' first | with_reducible exact h | with_reducible assumption | (intro) | with_reducible apply withEngine_keep | with_reducible apply streamFault_keep | with_reducible apply walk_keep | split

theorem restoreAnswered_keep (h : Keep x d) (sequence : Nat) (a : MemAnswer) : Keep x (restoreAnswered sequence a d) := by
  unfold restoreAnswered
  try dsimp -proj only
  repeat' first | with_reducible exact h | with_reducible assumption | (intro) | with_reducible apply withEngine_keep | with_reducible apply streamFault_keep | with_reducible apply walk_keep | split

theorem truncationAnswered_keep (h : Keep x d) (s : StreamNo) (a : MemAnswer) : Keep x (truncationAnswered s a d) := by
  unfold truncationAnswered
  try dsimp -proj only
  repeat' first | with_reducible exact h | with_reducible assumption | (intro) | with_reducible apply withStream_keep | with_reducible apply streamFault_keep | with_reducible apply enterFinalAnchor_keep | split

theorem completeRollback_keep (h : Keep x d) (s : StreamNo) : Keep x (completeRollback s d) := by
  unfold completeRollback
  try dsimp -proj only
  repeat' first | with_reducible exact h | with_reducible assumption | (intro) | with_reducible apply Keep.getD | with_reducible apply withStream_keep | with_reducible apply withEngine_keep | with_reducible apply streamDone_keep | with_reducible apply resumeRegions_keep | with_reducible apply settlePath_keep | with_reducible apply fetchFollowing_keep | with_reducible refine tryEngineClaimHandoff_keep ?_ (by assumption) | split

theorem withAttach_keep (h : Keep x d) (s : StreamNo) (f : Attach → Attach) : Keep x (Device.withAttach d s f) := by
  unfold Device.withAttach
  try dsimp -proj only
  repeat' first | with_reducible exact h | with_reducible assumption | (intro) | with_reducible apply withStream_keep | split

theorem offerAnchorReads_keep (h : Keep x d) (s : StreamNo) : Keep x (offerAnchorReads s d) := by
  unfold offerAnchorReads
  try dsimp -proj only
  repeat' first | with_reducible exact h | with_reducible assumption | (intro) | with_reducible apply offerAll_keep | with_reducible apply withAttach_keep | split

theorem takeFresh_keep (h : Keep x d) (s : StreamNo) (tag : BitVec 16) (policy : Policy) (stall : Option Nat) (label : BitVec 32) (anchor first : Nat) : Keep x (takeFresh s tag policy stall label anchor first d) := by
  unfold takeFresh
  try dsimp -proj only
  repeat' first | with_reducible exact h | with_reducible assumption | (intro) | with_reducible apply withStream_keep | with_reducible apply offerAll_keep | split

theorem takeResume_keep (h : Keep x d) (s : StreamNo) (tag : BitVec 16) (anchor : Nat) : Keep x (takeResume s tag anchor d) := by
  unfold takeResume
  try dsimp -proj only
  repeat' first | with_reducible exact h | with_reducible assumption | (intro) | with_reducible apply withStream_keep | with_reducible apply offerAnchorReads_keep | split

theorem testFresh_keep (h : Keep x d) (s : StreamNo) : Keep x (testFresh s d) := by
  unfold testFresh
  try dsimp -proj only
  repeat' first | with_reducible exact h | with_reducible assumption | (intro) | with_reducible apply withStream_keep | with_reducible apply offerAnchor_keep | split

theorem firstDescriptorAnswered_keep (h : Keep x d) (s : StreamNo) (a : MemAnswer) : Keep x (firstDescriptorAnswered s a d) := by
  unfold firstDescriptorAnswered
  try dsimp -proj only
  repeat' first | with_reducible exact h | with_reducible assumption | (intro) | with_reducible apply streamFault_keep | with_reducible apply withAttach_keep | with_reducible apply testFresh_keep | split

theorem reportEntered_keep (h : Keep x d) (s : StreamNo) (entries : Nat) : Keep x (reportEntered s entries d) := by
  unfold reportEntered
  try dsimp -proj only
  repeat' first | with_reducible exact h | with_reducible assumption | (intro) | with_reducible apply pushReport_keep | split

theorem freshAnchored_keep (h : Keep x d) (s : StreamNo) : Keep x (freshAnchored s d) := by
  unfold freshAnchored
  try dsimp -proj only
  repeat' first | with_reducible exact h | with_reducible assumption | (intro) | with_reducible apply fetchFollowing_keep | with_reducible apply withAttach_keep | with_reducible apply reportEntered_keep | split

theorem becomeActive_keep (h : Keep x d) (s : StreamNo) : Keep x (becomeActive s d) := by
  unfold becomeActive
  try dsimp -proj only
  repeat' first | with_reducible exact h | with_reducible assumption | (intro) | with_reducible apply withStream_keep | with_reducible apply settlePath_keep | split

theorem finishAttach_keep (h : Keep x d) (s : StreamNo) (report : Stream → Operation → Report) : Keep x (finishAttach s report d) := by
  unfold finishAttach
  try dsimp -proj only
  repeat' first | with_reducible exact h | with_reducible assumption | (intro) | with_reducible apply withStream_keep | with_reducible apply streamDone_keep | split

theorem freshComplete_keep (h : Keep x d) (s : StreamNo) : Keep x (freshComplete s d) := by
  unfold freshComplete
  try dsimp -proj only
  repeat' first | with_reducible exact h | with_reducible assumption | (intro) | with_reducible apply becomeActive_keep | with_reducible apply finishAttach_keep | split

theorem withScan_keep (h : Keep x d) (s : StreamNo) (f : Scan → Scan) : Keep x (Device.withScan d s f) := by
  unfold Device.withScan
  try dsimp -proj only
  repeat' first | with_reducible exact h | with_reducible assumption | (intro) | with_reducible apply withAttach_keep | split

theorem refillScan_keep (n : Nat) (s : StreamNo) (h : Keep x d) : Keep x (refillScan n s d) := by
  induction n generalizing d with
  | zero => exact h
  | succ n ih =>
    unfold refillScan
    dsimp -proj only
    split
    · exact h
    · split
      · exact ih (offerAll_keep (withScan_keep h _ _) _)
      · exact h

theorem acceptMark_keep (h : Keep x d) (s : StreamNo) (header : Line) (sequence : Nat) : Keep x (acceptMark s header sequence d) := by
  unfold acceptMark
  try dsimp -proj only
  repeat' first | with_reducible exact h | with_reducible assumption | (intro) | with_reducible apply withStream_keep | with_reducible apply retireOldest_keep | with_reducible apply withScan_keep | split

theorem acceptRecord_keep (h : Keep x d) (s : StreamNo) (header : Line) (sequence : Nat) : Keep x (acceptRecord s header sequence d) := by
  unfold acceptRecord
  try dsimp -proj only
  repeat' first | with_reducible exact h | with_reducible assumption | (intro) | with_reducible apply withScan_keep | with_reducible apply acceptMark_keep | split

theorem endScan_keep (h : Keep x d) (s : StreamNo) (expected : Nat) : Keep x (endScan s expected d) := by
  unfold endScan
  try dsimp -proj only
  repeat' first | with_reducible exact h | with_reducible assumption | (intro) | with_reducible apply withStream_keep | with_reducible apply abandon_keep | with_reducible apply offerAnchor_keep | with_reducible apply holdRegions_keep | with_reducible apply endAttach_keep | with_reducible apply claimEngine_keep | with_reducible apply withScan_keep | split

theorem judgeScan_keep (n : Nat) (s : StreamNo) (h : Keep x d) : Keep x (judgeScan n s d) := by
  induction n generalizing d with
  | zero => exact h
  | succ n ih =>
    unfold judgeScan
    dsimp -proj only
    repeat' split
    · exact h
    · exact endScan_keep h _ _
    · exact h
    · exact ih (refillScan_keep _ _ (acceptRecord_keep h _ _ _))
    · exact endScan_keep h _ _
    · exact h

theorem scanOn_keep (h : Keep x d) (s : StreamNo) : Keep x (scanOn s d) := judgeScan_keep _ _ (refillScan_keep _ _ h)

theorem scanReadAnswered_keep (h : Keep x d) (s : StreamNo) (sequence : Nat) (image : Bool) (a : MemAnswer) : Keep x (scanReadAnswered s sequence image a d) := by
  unfold scanReadAnswered
  try dsimp -proj only
  repeat' first | with_reducible exact h | with_reducible assumption | (intro) | with_reducible apply streamFault_keep | with_reducible apply withScan_keep | with_reducible apply scanOn_keep | split

theorem resumeJudged_keep (h : Keep x d) (s : StreamNo) (p q : BitVec 8192) : Keep x (resumeJudged s p q d) := by
  unfold resumeJudged
  try dsimp -proj only
  repeat' first | with_reducible exact h | with_reducible assumption | (intro) | with_reducible apply withStream_keep | with_reducible apply offer_keep | with_reducible apply endAttach_keep | with_reducible apply streamFault_keep | split

theorem resumeDescriptorAnswered_keep (h : Keep x d) (s : StreamNo) (a : MemAnswer) : Keep x (resumeDescriptorAnswered s a d) := by
  unfold resumeDescriptorAnswered
  try dsimp -proj only
  repeat' first | with_reducible exact h | with_reducible assumption | (intro) | with_reducible apply withStream_keep | with_reducible apply streamFault_keep | with_reducible apply withAttach_keep | with_reducible apply scanOn_keep | split

theorem anchorReadAnswered_keep (h : Keep x d) (s : StreamNo) (c : Copy) (i : Fin 16) (a : MemAnswer) : Keep x (anchorReadAnswered s c i a d) := by
  unfold anchorReadAnswered
  try dsimp -proj only
  repeat' first | with_reducible exact h | with_reducible assumption | (intro) | with_reducible apply streamFault_keep | with_reducible apply withAttach_keep | with_reducible apply testFresh_keep | with_reducible apply resumeJudged_keep | split

theorem resumeComplete_keep (h : Keep x d) (s : StreamNo) : Keep x (resumeComplete s d) := by
  unfold resumeComplete
  try dsimp -proj only
  repeat' first | with_reducible exact h | with_reducible assumption | (intro) | with_reducible apply fetchFollowing_keep | with_reducible apply becomeActive_keep | with_reducible apply finishAttach_keep | split

theorem tryReportWriteIssue_keep {d' : Device} (h : Keep x d) (e : tryReportWriteIssue d = some d') : Keep x d' := by
  unfold tryReportWriteIssue at e
  try dsimp -proj only at e
  repeat' split at e
  all_goals first | cases e | skip
  all_goals repeat' first | with_reducible exact h | with_reducible assumption | (intro) | with_reducible apply withReport_keep | with_reducible apply offer_keep | split

theorem reportAnswered_keep (h : Keep x d) (a : MemAnswer) : Keep x (reportAnswered a d) := by
  unfold reportAnswered
  try dsimp -proj only
  repeat' first | with_reducible exact h | with_reducible assumption | (intro) | with_reducible apply withReport_keep | with_reducible apply mergeSummary_keep | with_reducible apply offerHeadLine_keep | with_reducible apply deviceCheck_keep | split

theorem headLineOver_keep (h : Keep x d) : Keep x (headLineOver d) := by
  unfold headLineOver freeHeadLine
  exact Keep.getD (withCommand_keep h _) fun _ e => tryHeadLineWriteIssue_keep (withCommand_keep h _) e

theorem headLineAnswered_keep (h : Keep x d) (a : MemAnswer) : Keep x (headLineAnswered a d) := by
  unfold headLineAnswered freeHeadLine
  split
  · exact deviceCheck_keep (withCommand_keep h _) _ _
  · exact headLineOver_keep h

theorem runNop_keep (h : Keep x d) (h : CmdHead) : Keep x (runNop h d) := by
  unfold runNop
  try dsimp -proj only
  repeat' first | with_reducible exact h | with_reducible assumption | (intro) | with_reducible apply commandDone_keep | split

theorem runIdentify_keep (h : Keep x d) (h : CmdHead) : Keep x (runIdentify h d) := by
  unfold runIdentify
  try dsimp -proj only
  repeat' first | with_reducible exact h | with_reducible assumption | (intro) | with_reducible apply commandDone_keep | split

theorem runConfigure_keep (h : Keep x d) (h : CmdHead) (hold notify : BitVec 8) : Keep x (runConfigure h hold notify d) := by
  unfold runConfigure
  try dsimp -proj only
  repeat' first | with_reducible exact h | with_reducible assumption | (intro) | with_reducible apply withCommand_keep | with_reducible apply commandDone_keep | with_reducible apply expireIfOver_keep | with_reducible apply Keep.foldl | split

theorem runQueryRegion_keep (h : Keep x d) (h : CmdHead) : Keep x (runQueryRegion h d) := by
  unfold runQueryRegion
  try dsimp -proj only
  repeat' first | with_reducible exact h | with_reducible assumption | (intro) | with_reducible apply commandDone_keep | split

theorem runQueryStream_keep (h : Keep x d) (h : CmdHead) (item : BitVec 8) : Keep x (runQueryStream h item d) := by
  unfold runQueryStream
  try dsimp -proj only
  repeat' first | with_reducible exact h | with_reducible assumption | (intro) | with_reducible apply commandDone_keep | split

theorem runDeviceClear_keep (h : Keep x d) : Keep x (runDeviceClear d) := by
  unfold runDeviceClear
  try dsimp -proj only
  repeat' first | with_reducible exact h | with_reducible assumption | (intro) | with_reducible apply deviceCheck_keep | split

theorem runSetRegion_keep (h : Keep x d) (h : CmdHead) (base : BitVec 64) (exponent stream : BitVec 8) : Keep x (runSetRegion h base exponent stream d) := by
  unfold runSetRegion
  try dsimp -proj only
  repeat' first | with_reducible exact h | with_reducible assumption | (intro) | with_reducible apply withRegion_keep | with_reducible apply commandDone_keep | split

theorem runSetMode_keep (h : Keep x d) (h : CmdHead) (mode : BitVec 8) : Keep x (runSetMode h mode d) := by
  unfold runSetMode
  try dsimp -proj only
  repeat' first | with_reducible exact h | with_reducible assumption | (intro) | with_reducible apply commandDone_keep | with_reducible apply acceptMode_keep | split

theorem refuse_keep (h : Keep x d) (h : CmdHead) (status : Status) : Keep x (refuse h status d) := by
  unfold refuse
  try dsimp -proj only
  repeat' first | with_reducible exact h | with_reducible assumption | (intro) | with_reducible apply commandDone_keep | split

theorem runAttachFresh_keep (h : Keep x d) (h : CmdHead) (policy stall : BitVec 8) (label : BitVec 32) (anchor first : BitVec 64) : Keep x (runAttachFresh h policy stall label anchor first d) := by
  unfold runAttachFresh
  try dsimp -proj only
  repeat' first | with_reducible exact h | with_reducible assumption | (intro) | with_reducible apply takeFresh_keep | with_reducible apply refuse_keep | split

theorem runAttachResume_keep (h : Keep x d) (h : CmdHead) (anchor : BitVec 64) : Keep x (runAttachResume h anchor d) := by
  unfold runAttachResume
  try dsimp -proj only
  repeat' first | with_reducible exact h | with_reducible assumption | (intro) | with_reducible apply takeResume_keep | with_reducible apply refuse_keep | split

theorem takeDetach_keep (h : Keep x d) (s : StreamNo) (tag : BitVec 16) : Keep x (takeDetach s tag d) := by
  unfold takeDetach
  try dsimp -proj only
  repeat' first | with_reducible exact h | with_reducible assumption | (intro) | with_reducible apply withStream_keep | with_reducible apply detachCaptures_keep | split

theorem runDetach_keep (h : Keep x d) (h : CmdHead) : Keep x (runDetach h d) := by
  unfold runDetach
  try dsimp -proj only
  repeat' first | with_reducible exact h | with_reducible assumption | (intro) | with_reducible apply commandDone_keep | with_reducible apply detachStream_keep | with_reducible apply refuse_keep | with_reducible apply takeDetach_keep | split

theorem runExtend_keep (h : Keep x d) (h : CmdHead) (descriptor : BitVec 64) : Keep x (runExtend h descriptor d) := by
  unfold runExtend
  try dsimp -proj only
  repeat' first | with_reducible exact h | with_reducible assumption | (intro) | with_reducible apply withStream_keep | with_reducible apply refuse_keep | split

theorem takeMark_keep (h : Keep x d) (s : StreamNo) (tag : BitVec 16) (label : BitVec 32) : Keep x (takeMark s tag label d) := by
  unfold takeMark
  try dsimp -proj only
  repeat' first | with_reducible exact h | with_reducible assumption | (intro) | with_reducible apply withStream_keep | with_reducible apply removeStreamEntries_keep | split

theorem runMark_keep (h : Keep x d) (h : CmdHead) (label : BitVec 32) : Keep x (runMark h label d) := by
  unfold runMark
  try dsimp -proj only
  repeat' first | with_reducible exact h | with_reducible assumption | (intro) | with_reducible apply refuse_keep | with_reducible apply takeMark_keep | split

theorem takeRelease_keep (h : Keep x d) (s : StreamNo) (tag : BitVec 16) (e : Nat) : Keep x (takeRelease s tag e d) :=
  offerAnchor_keep (withStream_keep (retireWhile_keep _ _ _ _ h) _ _) _ _

theorem runRelease_keep (h : Keep x d) (h : CmdHead) (epoch : BitVec 32) : Keep x (runRelease h epoch d) := by
  unfold runRelease
  try dsimp -proj only
  repeat' first | with_reducible exact h | with_reducible assumption | (intro) | with_reducible apply refuse_keep | with_reducible apply takeRelease_keep | split

theorem refuseRollback_keep (h : Keep x d) (h : CmdHead) (epoch : BitVec 32) (status : Status) : Keep x (refuseRollback h epoch status d) := by
  unfold refuseRollback
  try dsimp -proj only
  repeat' first | with_reducible exact h | with_reducible assumption | (intro) | with_reducible apply commandDone_keep | split

theorem runRollback_keep (h : Keep x d) (h : CmdHead) (epoch : BitVec 32) : Keep x (runRollback h epoch d) := by
  unfold runRollback
  try dsimp -proj only
  repeat' first | with_reducible exact h | with_reducible assumption | (intro) | with_reducible apply takeRollback_keep | with_reducible apply refuseRollback_keep | split

theorem executing_keep (h : Keep x d) (head : CmdHead) {run : Device → Device} (hr : ∀ d, Keep x d → Keep x (run d)) :
    Keep x (executing head run d) := hr _ (withCommand_keep h _)

theorem skipRecord_keep (h : Keep x d) (h : CmdHead) (opcode : Nat) : Keep x (skipRecord h opcode d) := by
  unfold skipRecord
  try dsimp -proj only
  repeat' first | with_reducible exact h | with_reducible assumption | (intro) | with_reducible apply withCommand_keep | with_reducible apply commandDone_keep | split

theorem takeRecord_keep (h : Keep x d) (head : CmdHead) (opcode : Nat) {run : Device → Device}
    (hr : ∀ d, Keep x d → Keep x (run d)) : Keep x (takeRecord head opcode run d) := by
  unfold takeRecord
  repeat' split
  · exact h
  · exact skipRecord_keep h _ _
  · exact executing_keep h _ hr

theorem runUnknown_keep (h : Keep x d) (h : CmdHead) (opcode : Nat) : Keep x (runUnknown h opcode d) := by
  unfold runUnknown
  try dsimp -proj only
  repeat' first | with_reducible exact h | with_reducible assumption | (intro) | with_reducible apply commandDone_keep | split

theorem runAttach_keep (h : Keep x d) (h : CmdHead) (r : Line) : Keep x (runAttach h r d) := by
  unfold runAttach
  try dsimp -proj only
  repeat' first | with_reducible exact h | with_reducible assumption | (intro) | with_reducible apply refuse_keep | with_reducible apply runAttachFresh_keep | with_reducible apply runAttachResume_keep | split

theorem runRecord_keep (h : Keep x d) (r : Line) : Keep x (runRecord r d) := by
  unfold runRecord
  try dsimp -proj only
  repeat' first | with_reducible exact h | with_reducible assumption | (intro) | with_reducible apply runNop_keep | with_reducible apply runIdentify_keep | with_reducible apply runConfigure_keep | with_reducible apply runQueryRegion_keep | with_reducible apply runQueryStream_keep | with_reducible apply runDeviceClear_keep | with_reducible apply runSetRegion_keep | with_reducible apply runSetMode_keep | with_reducible apply runDetach_keep | with_reducible apply runExtend_keep | with_reducible apply runMark_keep | with_reducible apply runRelease_keep | with_reducible apply runRollback_keep | with_reducible apply runUnknown_keep | with_reducible apply runAttach_keep | split

theorem advanceHead_keep (h : Keep x d) : Keep x (advanceHead d) := by
  unfold advanceHead
  try dsimp -proj only
  repeat' first | with_reducible exact h | with_reducible assumption | (intro) | with_reducible apply withCommand_keep | with_reducible apply offerHeadLine_keep | split

theorem takeUnreadable_keep (h : Keep x d) (address index : Nat) : Keep x (takeUnreadable address index d) := by
  unfold takeUnreadable
  try dsimp -proj only
  repeat' first | with_reducible exact h | with_reducible assumption | (intro) | with_reducible apply withCommand_keep | with_reducible apply commandDone_keep | split

theorem takeReadable_keep (h : Keep x d) (r : Line) : Keep x (takeReadable r d) := by
  unfold takeReadable
  split
  · exact skipRecord_keep h _ _
  · exact executing_keep h _ fun _ k => runRecord_keep k _

theorem discardRecord_keep (h : Keep x d) : Keep x (discardRecord d) := by
  unfold discardRecord
  try dsimp -proj only
  repeat' first | with_reducible exact h | with_reducible assumption | (intro) | with_reducible apply withCommand_keep | split

theorem tryCommandRecordTaken_keep {d' : Device} (h : Keep x d) (e : tryCommandRecordTaken d = some d') : Keep x d' := by
  unfold tryCommandRecordTaken at e
  cases hf : d.command.fetch with
  | held r =>
    rw [hf] at e
    dsimp -proj only at e
    split at e
    · obtain rfl := Option.some.inj e
      split
      · exact discardRecord_keep h
      · exact takeReadable_keep (advanceHead_keep h) _
    · cases e
  | unreadable =>
    rw [hf] at e
    dsimp -proj only at e
    split at e
    · obtain rfl := Option.some.inj e
      split
      · exact discardRecord_keep h
      · exact takeUnreadable_keep (advanceHead_keep h) _ _
    · cases e
  | idle => rw [hf] at e; cases e
  | fetching a => rw [hf] at e; cases e

theorem tryCommandFetchIssue_keep {d' : Device} (h : Keep x d) (e : tryCommandFetchIssue d = some d') : Keep x d' := by
  unfold tryCommandFetchIssue at e
  try dsimp -proj only at e
  repeat' split at e
  all_goals first | cases e | skip
  all_goals repeat' first | with_reducible exact h | with_reducible assumption | (intro) | with_reducible apply withCommand_keep | with_reducible apply offer_keep | split

theorem fetchAnswered_keep (h : Keep x d) (a : MemAnswer) : Keep x (fetchAnswered a d) := by
  unfold fetchAnswered
  try dsimp -proj only
  repeat' first | with_reducible exact h | with_reducible assumption | (intro) | with_reducible apply withCommand_keep | split

theorem completeOperation_keep (h : Keep x d) (s : StreamNo) (report : Operation → Report) : Keep x (completeOperation s report d) := by
  unfold completeOperation
  try dsimp -proj only
  repeat' first | with_reducible exact h | with_reducible assumption | (intro) | with_reducible apply withStream_keep | with_reducible apply streamDone_keep | split

theorem detachComplete_keep (h : Keep x d) (s : StreamNo) : Keep x (detachComplete s d) := by
  unfold detachComplete
  try dsimp -proj only
  repeat' first | with_reducible exact h | with_reducible assumption | (intro) | with_reducible apply streamDone_keep | with_reducible apply detachStream_keep | with_reducible apply abandon_keep | split

theorem entryAnchored_keep (h : Keep x d) (s : StreamNo) (entries : Nat) : Keep x (entryAnchored s entries d) := by
  unfold entryAnchored
  try dsimp -proj only
  repeat' first | with_reducible exact h | with_reducible assumption | (intro) | with_reducible apply withStream_keep | with_reducible apply fetchFollowing_keep | with_reducible apply reportEntered_keep | split

theorem tellOwner_keep (h : Keep x d) (s : StreamNo) (o : Occasion) : Keep x (tellOwner s d o) := by
  unfold tellOwner
  try dsimp -proj only
  repeat' first | with_reducible exact h | with_reducible assumption | (intro) | with_reducible apply withStream_keep | with_reducible apply setInvalidation_keep | with_reducible apply endDegradations_keep | with_reducible apply enterRestoring_keep | with_reducible apply completeRollback_keep | with_reducible apply offerAnchorReads_keep | with_reducible apply freshAnchored_keep | with_reducible apply freshComplete_keep | with_reducible apply resumeComplete_keep | with_reducible apply completeOperation_keep | with_reducible apply detachComplete_keep | with_reducible apply entryAnchored_keep | split

theorem checkAfterAnchor_keep (h : Keep x d) (s : StreamNo) : Keep x (checkAfterAnchor s d) := by
  unfold checkAfterAnchor
  try dsimp -proj only
  repeat' first | with_reducible exact h | with_reducible assumption | (intro) | with_reducible apply offerInvalidation_keep | with_reducible apply invalidationEnd_keep | split

theorem anchorDone_keep (h : Keep x d) (s : StreamNo) (w : AnchorWrite) : Keep x (anchorDone s w d) := by
  unfold anchorDone
  try dsimp -proj only
  repeat' first | with_reducible exact h | with_reducible assumption | (intro) | with_reducible apply withStream_keep | with_reducible apply testFreed_keep | with_reducible apply tellOwner_keep | with_reducible apply checkAfterAnchor_keep | with_reducible apply Keep.foldl | split

theorem anchorOutcome_keep (h : Keep x d) (s : StreamNo) (w : AnchorWrite) : Keep x (anchorOutcome s w d) := by
  unfold anchorOutcome
  try dsimp -proj only
  repeat' first | with_reducible exact h | with_reducible assumption | (intro) | with_reducible apply setInvalidation_keep | with_reducible apply deviceCheckFor_keep | with_reducible apply streamFault_keep | split

theorem dropAnchorLines_keep (h : Keep x d) (s : StreamNo) (w : AnchorWrite) : Keep x (dropAnchorLines s w d) := by
  unfold dropAnchorLines
  repeat' first | with_reducible exact h | with_reducible assumption | (intro) | with_reducible apply abandon_keep | with_reducible apply discardLater_keep | split

theorem anchorFailed_keep (h : Keep x d) (s : StreamNo) (w : AnchorWrite) : Keep x (anchorFailed s w d) := by
  unfold anchorFailed
  try dsimp -proj only
  repeat' first | with_reducible exact h | with_reducible assumption | (intro) | with_reducible apply withStream_keep | with_reducible apply dropAnchorLines_keep | with_reducible apply checkAfterAnchor_keep | with_reducible apply anchorOutcome_keep | split

theorem anchorLineAnswered_keep (h : Keep x d) (s : StreamNo) (a : MemAnswer) : Keep x (anchorLineAnswered s a d) := by
  unfold anchorLineAnswered
  try dsimp -proj only
  repeat' first | with_reducible exact h | with_reducible assumption | (intro) | with_reducible apply withStream_keep | with_reducible apply anchorDone_keep | with_reducible apply anchorFailed_keep | split

theorem tellJob_keep (h : Keep x d) (r : PortRequest) (a : MemAnswer) : Keep x (tellJob r a d) := by
  unfold tellJob
  try dsimp -proj only
  repeat' first | with_reducible exact h | with_reducible assumption | (intro) | with_reducible apply respond_keep | with_reducible apply faultFirstAnswered_keep | with_reducible apply faultClosingAnswered_keep | with_reducible apply captureAnswered_keep | with_reducible apply slotRecordAnswered_keep | with_reducible apply markRecordAnswered_keep | with_reducible apply descriptorAnswered_keep | with_reducible apply updateReadAnswered_keep | with_reducible apply updateWriteAnswered_keep | with_reducible apply journalReadAnswered_keep | with_reducible apply restoreAnswered_keep | with_reducible apply truncationAnswered_keep | with_reducible apply firstDescriptorAnswered_keep | with_reducible apply scanReadAnswered_keep | with_reducible apply resumeDescriptorAnswered_keep | with_reducible apply anchorReadAnswered_keep | with_reducible apply reportAnswered_keep | with_reducible apply headLineAnswered_keep | with_reducible apply headLineOver_keep | with_reducible apply fetchAnswered_keep | with_reducible apply anchorLineAnswered_keep | split

theorem answerIssued_keep (h : Keep x d) (i : Issued) (a : MemAnswer) : Keep x (answerIssued i a d) := by
  unfold answerIssued
  try dsimp -proj only
  repeat' first | with_reducible exact h | with_reducible assumption | (intro) | with_reducible apply releaseLine_keep | with_reducible apply freeTag_keep | with_reducible apply tellJob_keep | split

theorem answerAbandoned_keep (h : Keep x d) (i : Issued) : Keep x (answerAbandoned i d) := by
  unfold answerAbandoned
  try dsimp -proj only
  repeat' first | with_reducible exact h | with_reducible assumption | (intro) | with_reducible apply releaseLine_keep | with_reducible apply freeTag_keep | with_reducible apply abandonedCaptureAnswered_keep | with_reducible apply headLineOver_keep | split

theorem strayAnswer_keep (h : Keep x d) : Keep x (strayAnswer d) := by
  unfold strayAnswer
  try dsimp -proj only
  repeat' first | with_reducible exact h | with_reducible assumption | (intro) | with_reducible apply deviceCheck_keep | split

theorem memoryAnswer_keep (h : Keep x d) (t : MemTag) (a : MemAnswer) : Keep x (memoryAnswer t a d) := by
  unfold memoryAnswer
  try dsimp -proj only
  repeat' first | with_reducible exact h | with_reducible assumption | (intro) | with_reducible apply answerIssued_keep | with_reducible apply answerAbandoned_keep | with_reducible apply strayAnswer_keep | split

theorem markAbandoned_keep (h : Keep x d) (t : MemTag) : Keep x (markAbandoned t d) := by
  refine h.trans ⟨rfl, rfl, ?_, id, fun l => ⟨l.ascending, l.used⟩, List.prefix_refl _, Nat.le_refl _⟩
  have e : tagsHeld (markAbandoned t d) = tagsHeld d := by
    simp only [tagsHeld, markAbandoned, Device.withArbiter, Device.withCheck, List.map_map]
    refine List.map_congr_left fun i _ => ?_
    simp only [Function.comp]
    split <;> rfl
  rw [e]

theorem answerForwarded_keep (h : Keep x d) (j : Job) : Keep x (answerForwarded j d) := by
  unfold answerForwarded
  try dsimp -proj only
  repeat' first | with_reducible exact h | with_reducible assumption | (intro) | with_reducible apply respond_keep | split

theorem tryMemoryResponseLimit_keep {t : MemTag} {d' : Device} (h : Keep x d) (e : tryMemoryResponseLimit t d = some d') :
    Keep x d' := by
  unfold tryMemoryResponseLimit at e
  dsimp -proj only at e
  repeat' split at e
  · cases e
  · cases e
  · obtain rfl := Option.some.inj e
    exact deviceClear_keep (answerForwarded_keep (markAbandoned_keep (reach_keep h _) _) _)
  · obtain rfl := Option.some.inj e
    exact deviceCheck_keep (answerForwarded_keep (markAbandoned_keep (reach_keep h _) _) _) _ _

theorem internalFailure_keep (h : Keep x d) (failed : Option CheckDetail) : Keep x (internalFailure failed d) := by
  unfold internalFailure
  split
  · exact deviceCheck_keep h _ _
  · exact h

theorem firstOf_keep {n : Nat} {f : Fin n → Device → Option Device} {d' : Device} (h : Keep x d)
    (hf : ∀ i d', f i d = some d' → Keep x d') (e : firstOf f d = some d') : Keep x d' := by
  obtain ⟨i, _, hi⟩ := List.exists_of_findSome?_eq_some e
  exact hf i d' hi

theorem streamStep_keep {d' : Device} (h : Keep x d) (e : streamStep d = some d') : Keep x d' := by
  simp only [streamStep, Option.or_eq_some_iff] at e
  rcases e with e | ⟨_, e | ⟨_, e | ⟨_, e | ⟨_, e | ⟨_, e | ⟨_, e | ⟨_, e⟩⟩⟩⟩⟩⟩⟩
  · exact firstOf_keep h (fun _ _ k => trySlotQueueService_keep h k) e
  · exact firstOf_keep h (fun _ _ k => tryRecordPlacement_keep h k) e
  · exact firstOf_keep h (fun _ _ k => tryExtendTargetChoice_keep h k) e
  · exact tryEngineClaimHandoff_keep h e
  · exact tryResumedHoldingEnd_keep h e
  · exact tryHoldingEnd_keep h e
  · exact firstOf_keep h (fun _ _ k => tryDetachFinalAnchor_keep h k) e
  · obtain ⟨s, _, k⟩ := Option.bind_eq_some_iff.mp e
    exact tryAnchorWriteIssue_keep h k

theorem unitStep_keep {d' : Device} (h : Keep x d) (e : unitStep d = some d') : Keep x d' := by
  simp only [unitStep, Option.or_eq_some_iff] at e
  rcases e with e | ⟨_, e | ⟨_, e | ⟨_, e | ⟨_, e⟩⟩⟩⟩
  · exact tryHoldSetDrained_keep h e
  · exact tryHeadLineWriteIssue_keep h e
  · exact tryReportWriteIssue_keep h e
  · exact tryCommandRecordTaken_keep h e
  · exact tryCommandFetchIssue_keep h e

theorem innerStep_keep {d' : Device} (h : Keep x d) (e : innerStep d = some d') : Keep x d' := by
  simp only [innerStep, Option.or_eq_some_iff] at e
  rcases e with e | ⟨_, e | ⟨_, e⟩⟩
  · exact pathStep_keep h e
  · exact streamStep_keep h e
  · exact unitStep_keep h e

theorem settle_keep (n : Nat) (h : Keep x d) : Keep x (settle n d) := by
  induction n generalizing d with
  | zero => exact h
  | succ n ih =>
    unfold settle
    split
    · exact h
    · exact ih (innerStep_keep h (by assumption))

theorem evaluate_keep (h : Keep x d) : Keep x (evaluate d) := by
  refine h.trans ⟨rfl, rfl, List.Sublist.refl _, fun a => ?_, fun l => ⟨l.ascending, l.used⟩, List.prefix_refl _,
    Nat.le_refl _⟩
  simp only [AgeBounded, evaluate, ageNow]
  split
  · exact Nat.zero_le _
  · exact a

/-- The end of an event keeps what `Keep` names. -/
theorem finish_keep (h : Keep x d) : Keep x (finish d) := evaluate_keep (settle_keep _ h)

end Sys2Proof.Machine
end

