-- ==== Sys2Proof/Laws/Event.lean ====
section
/-! SUPPORT. What an event and its end do, once: an event answers a next state with the queue untouched; an end of an event that
finds no inner step only evaluates the outputs. -/
namespace Sys2Proof.Machine

theorem event_next (effect : Device → Device) (s : State) : event effect s = .next { s with dev := finish (effect s.dev) } :=
  rfl

theorem innerEvent_done {f : Device → Option Device} {s : State} {d : Device} (h : f s.dev = some d) :
    innerEvent f s = .next { s with dev := finish d } := by
  rw [innerEvent, event, h]
  rfl

theorem innerEvent_idle {f : Device → Option Device} {s : State} (h : f s.dev = none) :
    innerEvent f s = .next { s with dev := finish s.dev } := by
  rw [innerEvent, event, h]
  rfl

theorem readingEvent_none (effect : Device → Device) (s : State) : readingEvent none effect s = event effect s := rfl

/-- A failed check code met at an event: the event's own effect, then the device check (R162, log 10). -/
theorem readingEvent_failed (f : CheckDetail) (effect : Device → Device) (s : State) :
    readingEvent (some f) effect s = .next { s with dev := finish (deviceCheck .internalState f (effect s.dev)) } := rfl

theorem settle_of_quiet {d : Device} (h : quiet d = true) (n : Nat) : settle n d = d := by
  cases n with
  | zero => rfl
  | succ n =>
    have e : innerStep d = none := Option.isNone_iff_eq_none.mp h
    rw [settle, e]

theorem finish_of_quiet {d : Device} (h : quiet d = true) : finish d = evaluate d := by
  rw [finish, settle_of_quiet h]

/-- An event keeps what its effect and the end of events keep. -/
theorem event_keep {effect : Device → Device} {s : State} {s' : State} (he : Keep s.dev (effect s.dev))
    (h : event effect s = .next s') : Keep s.dev s'.dev := by
  cases h
  exact finish_keep he

theorem readingEvent_keep {failed : Option CheckDetail} {effect : Device → Device} {s : State} {s' : State}
    (he : Keep s.dev (effect s.dev)) (h : readingEvent failed effect s = .next s') : Keep s.dev s'.dev :=
  event_keep (internalFailure_keep he failed) h

theorem innerEvent_keep {f : Device → Option Device} {s : State} {s' : State}
    (hf : ∀ d', f s.dev = some d' → Keep s.dev d') (h : innerEvent f s = .next s') : Keep s.dev s'.dev := by
  cases h
  exact finish_keep (Keep.getD (Keep.refl _) hf)

/-- NOTIFY_N is right after every end of an event. -/
theorem finish_notifyRight (d : Device) : NotifyRight (finish d) := rfl

/-! ## What `Keep` keeps safe -/

theorem Keep.ageBounded {x d : Device} (h : Keep x d) (a : AgeBounded x) : AgeBounded d := h.age a

theorem forwardedCount_eq (d : Device) : forwardedCount d = ((tagsHeld d).filter (·.2)).length := by
  simp [forwardedCount, tagsHeld, List.filter_map, Function.comp_def]

theorem internalCount_eq (d : Device) : internalCount d = ((tagsHeld d).filter (!·.2)).length := by
  simp [internalCount, tagsHeld, List.filter_map, Function.comp_def]

theorem Keep.tagPool {x d : Device} (h : Keep x d) (p : TagPool x) : TagPool d where
  distinct := (h.tags.map _).nodup p.distinct
  forwarded := by
    have e := (h.tags.filter (·.2)).length_le
    have q := p.forwarded
    rw [forwardedCount_eq] at q ⊢
    omega
  ownRequests := by
    have e := (h.tags.filter (!·.2)).length_le
    have q := p.ownRequests
    rw [internalCount_eq] at q ⊢
    omega

/-- The tags after a grant (R32, R34). -/
theorem tagsHeld_issue (t : MemTag) (r : PortRequest) (d : Device) :
    tagsHeld (issue t r d) = tagsHeld d ++ [(t, r.job.portClass == .c5)] := by
  have e : tagsHeld (granted r { d with
      arbiter := { waiting := d.arbiter.waiting.erase r
                   issued := d.arbiter.issued ++ [⟨t, { r with data := issueData d r }, r.job.portClass == .c5, false, d.now⟩]
                   age := ageAfter d r }
      sent := d.sent ++ [⟨t, r.write, r.line, r.mask, issueData d r⟩] }) = tagsHeld d ++ [(t, r.job.portClass == .c5)] := by
    unfold granted
    split <;> simp [tagsHeld, Device.setRequestState, Device.withRequest, Device.withCommand]
  exact e

/-- A grant by the tag rule keeps the pool within its bounds (R32). -/
theorem issue_tagPool {t : MemTag} {r : PortRequest} {d : Device} (p : TagPool d) (free : tagFree d t = true)
    (rule : tagRule d r.job.portClass = true) : TagPool (issue t r d) := by
  have new : t ∉ (tagsHeld d).map (·.1) := by
    simp only [tagFree, List.all_eq_true, bne_iff_ne] at free
    simp only [tagsHeld, List.map_map, List.mem_map, not_exists, not_and]
    exact fun i hi => free i hi
  simp only [tagRule, Bool.and_eq_true, decide_eq_true_eq] at rule
  have f := forwardedCount_eq d
  have g := internalCount_eq d
  have pf := p.forwarded
  have pg := p.ownRequests
  refine ⟨?_, ?_, ?_⟩
  · rw [tagsHeld_issue, List.map_append, List.nodup_append]
    refine ⟨p.distinct, by simp, fun a ha b hb e => new ?_⟩
    have : b = t := by simpa using hb
    rwa [← this, ← e]
  · rw [forwardedCount_eq, tagsHeld_issue]
    by_cases c : r.job.portClass = .c5 <;> simp_all
  · rw [internalCount_eq, tagsHeld_issue]
    by_cases c : r.job.portClass = .c5 <;> simp_all

end Sys2Proof.Machine
end

