-- ==== Sys2Proof/Laws/Formats.lean ====
section
/-! SUPPORT. What a layout of fields reads back as (R171), and the check code over what was laid out (R173). -/
namespace Sys2Proof.Machine

theorem testBit_bytesAt {n : Nat} (w : BitVec n) (o s j : Nat) :
    (bytesAt w o s).testBit j = (decide (j < 8 * s) && w.getLsbD (8 * o + j)) := by
  rw [bytesAt, Nat.testBit_mod_two_pow, Nat.testBit_shiftRight, BitVec.testBit_toNat]

/-- Bytes of a word as a run of its bits (R171). -/
theorem bytesAt_extract {n : Nat} (w : BitVec n) (o s : Nat) :
    BitVec.ofNat (8 * s) (bytesAt w o s) = w.extractLsb' (8 * o) (8 * s) := by
  apply BitVec.eq_of_getLsbD_eq
  intro i hi
  rw [BitVec.getLsbD_ofNat, testBit_bytesAt, BitVec.getLsbD_extractLsb']
  simp [hi]

theorem bytesAt_or {n : Nat} (a b : BitVec n) (o s : Nat) : bytesAt (a ||| b) o s = bytesAt a o s ||| bytesAt b o s := by
  apply Nat.eq_of_testBit_eq
  intro j
  rw [Nat.testBit_lor, testBit_bytesAt, testBit_bytesAt, testBit_bytesAt, BitVec.getLsbD_or]
  cases decide (j < 8 * s) <;> rfl

/-- A bit of a layout is a bit of one of its fields. -/
theorem getLsbD_layout (n : Nat) (fields : List (Nat × Nat × Nat)) (i : Nat) :
    (layout n fields).getLsbD i = (decide (i < n) && fields.any fun f =>
      decide (8 * f.1 ≤ i) && (decide (i - 8 * f.1 < 8 * f.2.1) && f.2.2.testBit (i - 8 * f.1))) := by
  have h : ∀ (l : List (Nat × Nat × Nat)) (acc : Nat),
      (l.foldl (fun acc f => acc ||| ((f.2.2 % 2 ^ (8 * f.2.1)) <<< (8 * f.1))) acc).testBit i =
        (acc.testBit i || l.any fun f =>
          decide (8 * f.1 ≤ i) && (decide (i - 8 * f.1 < 8 * f.2.1) && f.2.2.testBit (i - 8 * f.1))) := by
    intro l
    induction l with
    | nil => intro acc; simp
    | cons f l ih =>
      intro acc
      rw [List.foldl_cons, ih, Nat.testBit_lor, Nat.testBit_shiftLeft, Nat.testBit_mod_two_pow, List.any_cons, Bool.or_assoc]
  rw [layout, BitVec.getLsbD_ofNat, h]
  simp

/-- Two fields share no byte. -/
def Apart (f g : Nat × Nat × Nat) : Prop := f.1 + f.2.1 ≤ g.1 ∨ g.1 + g.2.1 ≤ f.1

/-- A field of a layout whose fields share no byte reads back. -/
theorem bytesAt_layout {n : Nat} {fields : List (Nat × Nat × Nat)} {o s v : Nat} (apart : fields.Pairwise Apart)
    (field : (o, s, v) ∈ fields) (fits : 8 * (o + s) ≤ n) (small : v < 2 ^ (8 * s)) :
    bytesAt (layout n fields) o s = v := by
  apply Nat.eq_of_testBit_eq
  intro j
  rw [testBit_bytesAt, getLsbD_layout]
  by_cases hj : j < 8 * s
  · have hn : 8 * o + j < n := by omega
    simp only [hj, hn, decide_true, Bool.true_and]
    rw [Bool.eq_iff_iff, List.any_eq_true]
    constructor
    · rintro ⟨f, hf, hb⟩
      simp only [Bool.and_eq_true, decide_eq_true_eq] at hb
      by_cases e : f = (o, s, v)
      · subst e
        simpa using hb.2.2
      · have symm : Std.Symm Apart := ⟨fun _ _ h => h.symm⟩
        have q : Apart f (o, s, v) := apart.forall hf field e
        rcases q with q | q <;> simp only at q <;> omega
    · intro b
      refine ⟨_, field, ?_⟩
      simp only [Bool.and_eq_true, decide_eq_true_eq]
      refine ⟨by omega, by omega, ?_⟩
      rwa [Nat.add_sub_cancel_left]
  · simp only [hj, decide_false, Bool.false_and]
    exact (Nat.testBit_lt_two_pow (lt_of_lt_of_le small (Nat.pow_le_pow_right (by decide) (Nat.le_of_not_lt hj)))).symm

/-- Bytes that no field covers are zero. -/
theorem bytesAt_layout_gap {n : Nat} {fields : List (Nat × Nat × Nat)} {o s : Nat}
    (apart : ∀ f ∈ fields, Apart (o, s, 0) f) : bytesAt (layout n fields) o s = 0 := by
  apply Nat.eq_of_testBit_eq
  intro j
  rw [testBit_bytesAt, getLsbD_layout, Nat.zero_testBit]
  by_cases hj : j < 8 * s
  · have : (fields.any fun f => decide (8 * f.1 ≤ 8 * o + j) && (decide (8 * o + j - 8 * f.1 < 8 * f.2.1)
        && f.2.2.testBit (8 * o + j - 8 * f.1))) = false := by
      rw [List.any_eq_false]
      intro f hf
      have q := apart f hf
      simp only [Bool.and_eq_true, decide_eq_true_eq]
      rintro ⟨h1, h2, -⟩
      rcases q with q | q <;> simp only at q <;> omega
    rw [this]
    simp
  · simp [hj]

theorem getLsbD_zeroed {n : Nat} (w : BitVec n) (o s i : Nat) :
    (zeroed w o s).getLsbD i = (w.getLsbD i && !(decide (8 * o ≤ i) && decide (i < 8 * o + 8 * s))) := by
  by_cases hi : i < n
  · rw [zeroed, BitVec.getLsbD_and, BitVec.getLsbD_not, BitVec.getLsbD_ofNat, Nat.testBit_shiftLeft,
      Nat.testBit_two_pow_sub_one]
    simp only [hi, decide_true, Bool.true_and]
    congr 2
    by_cases h : 8 * o ≤ i
    · have : (i - 8 * o < 8 * s) = (i < 8 * o + 8 * s) := by rw [eq_iff_iff]; omega
      simp [h, this]
    · simp [h]
  · rw [BitVec.getLsbD_of_ge _ _ (Nat.le_of_not_lt hi), BitVec.getLsbD_of_ge _ _ (Nat.le_of_not_lt hi), Bool.false_and]

/-- A field added to bytes that are zero is what zeroing them takes away. -/
theorem zeroed_add {n : Nat} (w : BitVec n) (o s v : Nat) (empty : bytesAt w o s = 0) :
    zeroed (w ||| layout n [(o, s, v)]) o s = w := by
  apply BitVec.eq_of_getLsbD_eq
  intro i hi
  have e : ∀ j, j < 8 * s → w.getLsbD (8 * o + j) = false := by
    intro j hj
    have q := testBit_bytesAt w o s j
    rw [empty, Nat.zero_testBit] at q
    simpa [hj] using q.symm
  rw [getLsbD_zeroed, BitVec.getLsbD_or, getLsbD_layout]
  simp only [hi, decide_true, Bool.true_and, List.any_cons, List.any_nil, Bool.or_false]
  by_cases h1 : 8 * o ≤ i
  · by_cases h2 : i < 8 * o + 8 * s
    · have q := e (i - 8 * o) (by omega)
      rw [Nat.add_sub_cancel' h1] at q
      simp [h1, h2, q]
    · have h3 : ¬ i - 8 * o < 8 * s := by omega
      simp [h2, h3]
  · simp [h1]

/-- A check code fits its field (R173). -/
theorem crc_lt {n : Nat} (m : BitVec n) : crc m < 2 ^ 32 := by
  unfold crc
  omega

/-! ## Check codes and copies as they are laid out (R173, Table 11-6) -/

/-- A field laid over a word changes no byte apart from it. -/
theorem bytesAt_or_layout {n : Nat} (w : BitVec n) (o s p q v : Nat) (apart : Apart (o, s, 0) (p, q, v)) :
    bytesAt (w ||| layout n [(p, q, v)]) o s = bytesAt w o s := by
  rw [bytesAt_or, bytesAt_layout_gap (fun f hf => List.mem_singleton.mp hf ▸ apart), Nat.or_zero]

/-- A check code of four bytes laid over bytes that are zero reads back. -/
theorem bytesAt_or_check {n : Nat} (w : BitVec n) (o c : Nat) (empty : bytesAt w o 4 = 0) (fits : 8 * (o + 4) ≤ n)
    (small : c < 2 ^ 32) : bytesAt (w ||| layout n [(o, 4, c)]) o 4 = c := by
  rw [bytesAt_or, empty, bytesAt_layout (List.pairwise_singleton _ _) (List.mem_singleton.mpr rfl) fits small, Nat.zero_or]

/-- A header with its check code laid over zero bytes passes its check (R110, R173). -/
theorem recordChecks_or (bare image : Line) (empty : bytesAt bare 0x1C 4 = 0) :
    recordChecks (bare ||| layout 512 [(0x1C, 4, recordCheckCode bare image)]) image = true := by
  have small : recordCheckCode bare image < 2 ^ 32 := crc_lt _
  have same : recordCheckCode (bare ||| layout 512 [(0x1C, 4, recordCheckCode bare image)]) image = recordCheckCode bare image := by
    have e : zeroed bare 0x1C 4 = bare := by
      have q := zeroed_add bare 0x1C 4 0 empty
      have z : layout 512 [(0x1C, 4, 0)] = 0#512 := rfl
      rwa [z, BitVec.or_zero] at q
    rw [recordCheckCode, zeroed_add bare _ _ _ empty, recordCheckCode, e]
  rw [recordChecks, decide_eq_true_eq, same]
  exact bytesAt_or_check _ _ _ empty (by decide) small

/-- A copy with its magic, and its check code laid over zero bytes, is valid (R122, R173). -/
theorem copyValid_or (bare : BitVec 8192) (magic : bytesAt bare 0x000 4 = anchorMagic) (empty : bytesAt bare 0x004 4 = 0) :
    copyValid (bare ||| layout 8192 [(0x004, 4, anchorCheckCode bare)]) = true := by
  have e : zeroed bare 0x004 4 = bare := by
    have q := zeroed_add bare 0x004 4 0 empty
    have z : layout 8192 [(0x004, 4, 0)] = 0#8192 := rfl
    rwa [z, BitVec.or_zero] at q
  have same : anchorCheckCode (bare ||| layout 8192 [(0x004, 4, anchorCheckCode bare)]) = anchorCheckCode bare := by
    rw [anchorCheckCode, zeroed_add bare _ _ _ empty, anchorCheckCode, e]
  rw [copyValid, Bool.and_eq_true, decide_eq_true_eq, decide_eq_true_eq, same]
  have apart : Apart (0x000, 4, 0) (0x004, 4, anchorCheckCode bare) := .inl (Nat.le_refl 4)
  exact ⟨(bytesAt_or_layout _ _ _ _ _ _ apart).trans magic, bytesAt_or_check _ _ _ empty (by decide) (crc_lt _)⟩

/-- The pieces of a word, laid side by side again, give the word. -/
theorem join_pieces (k w : Nat) : ∀ n i : Nat, ((List.range' i n).map fun j => (w >>> (k * j)) % 2 ^ k).foldr
    (fun l acc => l ||| (acc <<< k)) 0 = (w >>> (k * i)) % 2 ^ (k * n) := by
  intro n
  induction n with
  | zero => intro i; simp [Nat.mod_one]
  | succ n ih =>
    intro i
    rw [List.range'_succ, List.map_cons, List.foldr_cons, ih]
    apply Nat.eq_of_testBit_eq
    intro j
    rw [Nat.testBit_lor, Nat.testBit_shiftLeft, Nat.testBit_mod_two_pow, Nat.testBit_mod_two_pow, Nat.testBit_mod_two_pow,
      Nat.testBit_shiftRight, Nat.testBit_shiftRight, Nat.mul_succ, Nat.mul_succ]
    by_cases h : j < k
    · have h2 : j < k * n + k := by omega
      have h3 : ¬ j ≥ k := by omega
      simp [h, h2, h3]
    · have h3 : j ≥ k := by omega
      have e : k * i + k + (j - k) = k * i + j := by omega
      have h4 : decide (j - k < k * n) = decide (j < k * n + k) := by
        rw [decide_eq_decide]
        omega
      simp [h, h3, e, h4]

/-- The sixteen lines of a copy join to the copy (R128, Table 11-6). -/
theorem joinLines_anchorLine (copy : BitVec 8192) (lines : Table (Option Line) 16)
    (h : lines.cells = (indices 16).map fun i => some (anchorLine copy i)) : joinLines lines = some copy := by
  have q := join_pieces 512 copy.toNat 16 0
  have e : (indices 16).map (fun i => some (anchorLine copy i)) =
      (List.range' 0 16).map fun j => some (copy.extractLsb' (512 * j) 512) := rfl
  have all : (((List.range' 0 16).map fun j => some (copy.extractLsb' (512 * j) 512)).all Option.isSome) = true := by
    simp
  rw [joinLines, h, e, if_pos all]
  have small : copy.toNat < 2 ^ (512 * 16) := copy.isLt
  rw [Nat.mul_zero, Nat.shiftRight_zero, Nat.mod_eq_of_lt small, List.foldr_map] at q
  rw [List.foldr_map]
  simp only [Option.getD_some, BitVec.extractLsb'_toNat]
  rw [q, BitVec.ofNat_toNat, BitVec.setWidth_eq]

end Sys2Proof.Machine
end

