-- ==== Sys2Proof/WellFormed.lean ====
section
/-! DEFINITION. Which commands could stand on the part's ports: the ranges of tags, slots, regions and streams are in the
operand types, so what is left to check is that a line address is the address
of a line (00_scope.md 3.1), that an admission number fits its counter (R22), and that a failed check code names a structure
(R162). -/
namespace Sys2Proof

/-- A line address: a multiple of 64 below 1 TiB. -/
def isLineAddress (a : Nat) : Bool := a % 64 == 0 && decide (a < Config.addressSpace)

/-- The checks of a command's operands. -/
def Instr.wellFormed : Instr → Bool
  | .requesterRead _ line => isLineAddress line
  | .requesterWrite _ line _ _ => isLineAddress line
  | .lineGrant line failed => isLineAddress line && failed != some .none
  | .memoryResponseLimit ⟨_, failed⟩ | .deviceClear ⟨_, failed⟩ => failed != some .none
  | .headLineWriteAnswer ⟨_, failed⟩ _ | .reportWriteAnswer ⟨_, failed⟩ _ | .strayResponse ⟨_, failed⟩ _ => failed != some .none
  | .commandTail _ admission => decide (admission < 2 ^ 64)
  | .ringSetup _ | .reportSetup _ | .reportAck _ | .faultAck _ => true
  | .requestAdmission _ | .modeChangeApplied _ | .slotQueueService _ | .arbiterGrant _ => true
  | .holdLimitExpiry _ | .stallLimitExpiry _ => true
  | .forwardedRequestAnswer _ _ | .captureReadAnswer _ _ | .recordPlacement _ | .recordLineAnswer _ _ => true
  | .descriptorFetchAnswer _ _ | .extendTargetChoice _ | .descriptorUpdateReadAnswer _ _ => true
  | .descriptorUpdateWriteAnswer _ _ | .anchorWriteIssue _ | .anchorWriteLineAnswer _ _ => true
  | .detachFinalAnchor _ | .anchorReadAnswer _ _ | .resumeDescriptorAnswer _ _ | .scanReadAnswer _ _ => true
  | .engineClaimHandoff | .holdingEnd | .resumedHoldingEnd => true
  | .journalReadAnswer _ _ | .restoreWriteAnswer _ _ | .truncationDescriptorAnswer _ _ => true
  | .commandFetchIssue | .commandFetchAnswer _ _ | .commandRecordTaken => true
  | .nop _ | .identify _ | .configure _ _ _ | .setRegion _ _ _ _ | .setMode _ _ | .queryRegion _ => true
  | .attachFresh _ _ _ _ _ _ | .attachResume _ _ | .detach _ | .extend _ _ | .mark _ _ | .release _ _ => true
  | .rollback _ _ | .queryStream _ _ | .headLineWriteIssue | .reportWriteIssue => true
  | .holdSetDrained | .faultRecordFirstLineAnswer _ _ | .faultRecordClosingLineAnswer _ _ => true
  | .abandonedTagAnswer _ _ | .coldReset _ => true

end Sys2Proof
end

