-- ==== Sys2Proof/Laws/PerInstr.lean ====
section
/-! SUPPORT. A fact of every command as syntax: a well-formed command's line address is the address of a line
(00_scope.md 3.1). One lemma per constructor. -/
namespace Sys2Proof.Laws.LinesAligned
open Sys2Proof

/-- The line address a command carries, if it carries one. -/
def lineOperand : Instr → Option Nat
  | .requesterRead _ line => some line
  | .requesterWrite _ line _ _ => some line
  | .lineGrant line _ => some line
  | _ => none

/-- A well-formed command's line address is a multiple of 64 below 1 TiB. -/
def Statement (i : Instr) : Prop :=
  i.wellFormed = true → ∀ line, lineOperand i = some line → line % 64 = 0 ∧ line < 2 ^ 40

/-- The check of a line address, as it reads. -/
theorem of_isLineAddress {a : Nat} (h : isLineAddress a = true) : a % 64 = 0 ∧ a < 2 ^ 40 := by
  rw [isLineAddress, Bool.and_eq_true, beq_iff_eq, decide_eq_true_eq] at h
  exact h

/-- A command without a line address. -/
theorem of_none {i : Instr} (h : lineOperand i = none) : Statement i := by
  intro _ line e
  rw [h] at e
  cases e

theorem requesterRead (tag : ReqTag) (line : Nat) : Statement (.requesterRead tag line) := by
  rintro h _ ⟨rfl⟩
  exact of_isLineAddress h

theorem requesterWrite (tag : ReqTag) (line : Nat) (mask : Mask) (data : Line) :
    Statement (.requesterWrite tag line mask data) := by
  rintro h _ ⟨rfl⟩
  exact of_isLineAddress h

theorem lineGrant (line : Nat) (failed : Option CheckDetail) : Statement (.lineGrant line failed) := by
  rintro h _ ⟨rfl⟩
  exact of_isLineAddress (Bool.and_eq_true_iff.mp h).1

theorem ringSetup (value : BitVec 64) : Statement (.ringSetup value) := of_none rfl
theorem commandTail (value : BitVec 64) (admission : Nat) : Statement (.commandTail value admission) := of_none rfl
theorem reportSetup (value : BitVec 64) : Statement (.reportSetup value) := of_none rfl
theorem reportAck (value : BitVec 64) : Statement (.reportAck value) := of_none rfl
theorem faultAck (value : BitVec 64) : Statement (.faultAck value) := of_none rfl
theorem requestAdmission (region : RegionNo) : Statement (.requestAdmission region) := of_none rfl
theorem modeChangeApplied (region : RegionNo) : Statement (.modeChangeApplied region) := of_none rfl
theorem slotQueueService (slot : SlotNo) : Statement (.slotQueueService slot) := of_none rfl
theorem arbiterGrant (tag : MemTag) : Statement (.arbiterGrant tag) := of_none rfl
theorem holdLimitExpiry (tag : ReqTag) : Statement (.holdLimitExpiry tag) := of_none rfl
theorem memoryResponseLimit (tag : Checked MemTag) : Statement (.memoryResponseLimit tag) := of_none rfl
theorem stallLimitExpiry (stream : StreamNo) : Statement (.stallLimitExpiry stream) := of_none rfl
theorem forwardedRequestAnswer (tag : MemTag) (answer : MemAnswer) :
    Statement (.forwardedRequestAnswer tag answer) := of_none rfl
theorem captureReadAnswer (tag : MemTag) (answer : MemAnswer) : Statement (.captureReadAnswer tag answer) := of_none rfl
theorem recordPlacement (stream : StreamNo) : Statement (.recordPlacement stream) := of_none rfl
theorem recordLineAnswer (tag : MemTag) (answer : MemAnswer) : Statement (.recordLineAnswer tag answer) := of_none rfl
theorem descriptorFetchAnswer (tag : MemTag) (answer : MemAnswer) :
    Statement (.descriptorFetchAnswer tag answer) := of_none rfl
theorem extendTargetChoice (stream : StreamNo) : Statement (.extendTargetChoice stream) := of_none rfl
theorem descriptorUpdateReadAnswer (tag : MemTag) (answer : MemAnswer) :
    Statement (.descriptorUpdateReadAnswer tag answer) := of_none rfl
theorem descriptorUpdateWriteAnswer (tag : MemTag) (answer : MemAnswer) :
    Statement (.descriptorUpdateWriteAnswer tag answer) := of_none rfl
theorem anchorWriteIssue (stream : StreamNo) : Statement (.anchorWriteIssue stream) := of_none rfl
theorem anchorWriteLineAnswer (tag : MemTag) (answer : MemAnswer) :
    Statement (.anchorWriteLineAnswer tag answer) := of_none rfl
theorem detachFinalAnchor (stream : StreamNo) : Statement (.detachFinalAnchor stream) := of_none rfl
theorem anchorReadAnswer (tag : MemTag) (answer : MemAnswer) : Statement (.anchorReadAnswer tag answer) := of_none rfl
theorem resumeDescriptorAnswer (tag : MemTag) (answer : MemAnswer) :
    Statement (.resumeDescriptorAnswer tag answer) := of_none rfl
theorem scanReadAnswer (tag : MemTag) (answer : MemAnswer) : Statement (.scanReadAnswer tag answer) := of_none rfl
theorem engineClaimHandoff : Statement .engineClaimHandoff := of_none rfl
theorem holdingEnd : Statement .holdingEnd := of_none rfl
theorem resumedHoldingEnd : Statement .resumedHoldingEnd := of_none rfl
theorem journalReadAnswer (tag : MemTag) (answer : MemAnswer) : Statement (.journalReadAnswer tag answer) := of_none rfl
theorem restoreWriteAnswer (tag : MemTag) (answer : MemAnswer) : Statement (.restoreWriteAnswer tag answer) := of_none rfl
theorem truncationDescriptorAnswer (tag : MemTag) (answer : MemAnswer) :
    Statement (.truncationDescriptorAnswer tag answer) := of_none rfl
theorem commandFetchIssue : Statement .commandFetchIssue := of_none rfl
theorem commandFetchAnswer (tag : MemTag) (answer : MemAnswer) : Statement (.commandFetchAnswer tag answer) := of_none rfl
theorem commandRecordTaken : Statement .commandRecordTaken := of_none rfl
theorem nop (head : CmdHead) : Statement (.nop head) := of_none rfl
theorem identify (head : CmdHead) : Statement (.identify head) := of_none rfl
theorem configure (head : CmdHead) (hold notify : BitVec 8) : Statement (.configure head hold notify) := of_none rfl
theorem setRegion (head : CmdHead) (base : BitVec 64) (exponent stream : BitVec 8) :
    Statement (.setRegion head base exponent stream) := of_none rfl
theorem setMode (head : CmdHead) (mode : BitVec 8) : Statement (.setMode head mode) := of_none rfl
theorem queryRegion (head : CmdHead) : Statement (.queryRegion head) := of_none rfl
theorem attachFresh (head : CmdHead) (policy stall : BitVec 8) (label : BitVec 32) (anchor first : BitVec 64) :
    Statement (.attachFresh head policy stall label anchor first) := of_none rfl
theorem attachResume (head : CmdHead) (anchor : BitVec 64) : Statement (.attachResume head anchor) := of_none rfl
theorem detach (head : CmdHead) : Statement (.detach head) := of_none rfl
theorem extend (head : CmdHead) (descriptor : BitVec 64) : Statement (.extend head descriptor) := of_none rfl
theorem mark (head : CmdHead) (label : BitVec 32) : Statement (.mark head label) := of_none rfl
theorem release (head : CmdHead) (epoch : BitVec 32) : Statement (.release head epoch) := of_none rfl
theorem rollback (head : CmdHead) (epoch : BitVec 32) : Statement (.rollback head epoch) := of_none rfl
theorem queryStream (head : CmdHead) (item : BitVec 8) : Statement (.queryStream head item) := of_none rfl
theorem deviceClear (head : Checked CmdHead) : Statement (.deviceClear head) := of_none rfl
theorem headLineWriteIssue : Statement .headLineWriteIssue := of_none rfl
theorem headLineWriteAnswer (tag : Checked MemTag) (answer : MemAnswer) :
    Statement (.headLineWriteAnswer tag answer) := of_none rfl
theorem reportWriteIssue : Statement .reportWriteIssue := of_none rfl
theorem reportWriteAnswer (tag : Checked MemTag) (answer : MemAnswer) :
    Statement (.reportWriteAnswer tag answer) := of_none rfl
theorem holdSetDrained : Statement .holdSetDrained := of_none rfl
theorem faultRecordFirstLineAnswer (tag : MemTag) (answer : MemAnswer) :
    Statement (.faultRecordFirstLineAnswer tag answer) := of_none rfl
theorem faultRecordClosingLineAnswer (tag : MemTag) (answer : MemAnswer) :
    Statement (.faultRecordClosingLineAnswer tag answer) := of_none rfl
theorem abandonedTagAnswer (tag : MemTag) (answer : MemAnswer) : Statement (.abandonedTagAnswer tag answer) := of_none rfl
theorem strayResponse (tag : Checked MemTag) (answer : MemAnswer) :
    Statement (.strayResponse tag answer) := of_none rfl
theorem coldReset (winsel : BitVec 8) : Statement (.coldReset winsel) := of_none rfl

end Sys2Proof.Laws.LinesAligned
end

