-- ==== Sys2Proof/Laws/Rows.lean ====
section
/-! SUPPORT. What each row's meaning is made of: its shared operation, by definition. -/
namespace Sys2Proof.Machine

theorem exec_requesterRead (tag : ReqTag) (line : Nat) (s : State) :
    exec (.requesterRead tag line) s = event (acceptRequest tag false line 0 0) s := rfl
theorem exec_requesterWrite (tag : ReqTag) (line : Nat) (mask : Mask) (data : Line) (s : State) :
    exec (.requesterWrite tag line mask data) s = event (acceptRequest tag true line mask data) s := rfl
theorem exec_ringSetup (value : BitVec 64) (s : State) :
    exec (.ringSetup value) s = event (judgeRingSetup value) s := rfl
theorem exec_commandTail (value : BitVec 64) (admission : Nat) (s : State) :
    exec (.commandTail value admission) s = event (judgeCommandTail value admission) s := rfl
theorem exec_reportSetup (value : BitVec 64) (s : State) :
    exec (.reportSetup value) s = event (judgeReportSetup value) s := rfl
theorem exec_reportAck (value : BitVec 64) (s : State) :
    exec (.reportAck value) s = event (judgeReportAck value) s := rfl
theorem exec_faultAck (value : BitVec 64) (s : State) : exec (.faultAck value) s = event (judgeFaultAck value) s := rfl
theorem exec_requestAdmission (region : RegionNo) (s : State) :
    exec (.requestAdmission region) s = innerEvent (tryRequestAdmission region) s := rfl
theorem exec_modeChangeApplied (region : RegionNo) (s : State) :
    exec (.modeChangeApplied region) s = innerEvent (tryModeChangeApplied region) s := rfl
theorem exec_lineGrant (line : Nat) (failed : Option CheckDetail) (s : State) :
    exec (.lineGrant line failed) s =
      readingEvent failed (fun d => (tryLineGrant line d).getD d) s := rfl
theorem exec_slotQueueService (slot : SlotNo) (s : State) :
    exec (.slotQueueService slot) s = innerEvent (trySlotQueueService slot) s := rfl
theorem exec_arbiterGrant (tag : MemTag) (s : State) :
    exec (.arbiterGrant tag) s = innerEvent (tryArbiterGrant tag) s := rfl
theorem exec_holdLimitExpiry (tag : ReqTag) (s : State) :
    exec (.holdLimitExpiry tag) s = innerEvent (tryHoldLimitExpiry tag) s := rfl
theorem exec_memoryResponseLimit (tag : Checked MemTag) (s : State) :
    exec (.memoryResponseLimit tag) s = readingEvent tag.failed (fun d => (tryMemoryResponseLimit tag.value d).getD d) s := rfl
theorem exec_stallLimitExpiry (stream : StreamNo) (s : State) :
    exec (.stallLimitExpiry stream) s = innerEvent (tryStallLimitExpiry stream) s := rfl
theorem exec_forwardedRequestAnswer (tag : MemTag) (answer : MemAnswer) (s : State) :
    exec (.forwardedRequestAnswer tag answer) s = event (memoryAnswer tag answer) s := rfl
theorem exec_captureReadAnswer (tag : MemTag) (answer : MemAnswer) (s : State) :
    exec (.captureReadAnswer tag answer) s = event (memoryAnswer tag answer) s := rfl
theorem exec_recordPlacement (stream : StreamNo) (s : State) :
    exec (.recordPlacement stream) s = innerEvent (tryRecordPlacement stream) s := rfl
theorem exec_recordLineAnswer (tag : MemTag) (answer : MemAnswer) (s : State) :
    exec (.recordLineAnswer tag answer) s = event (memoryAnswer tag answer) s := rfl
theorem exec_descriptorFetchAnswer (tag : MemTag) (answer : MemAnswer) (s : State) :
    exec (.descriptorFetchAnswer tag answer) s = event (memoryAnswer tag answer) s := rfl
theorem exec_extendTargetChoice (stream : StreamNo) (s : State) :
    exec (.extendTargetChoice stream) s = innerEvent (tryExtendTargetChoice stream) s := rfl
theorem exec_descriptorUpdateReadAnswer (tag : MemTag) (answer : MemAnswer) (s : State) :
    exec (.descriptorUpdateReadAnswer tag answer) s = event (memoryAnswer tag answer) s := rfl
theorem exec_descriptorUpdateWriteAnswer (tag : MemTag) (answer : MemAnswer) (s : State) :
    exec (.descriptorUpdateWriteAnswer tag answer) s = event (memoryAnswer tag answer) s := rfl
theorem exec_anchorWriteIssue (stream : StreamNo) (s : State) :
    exec (.anchorWriteIssue stream) s = innerEvent (tryAnchorWriteIssue stream) s := rfl
theorem exec_anchorWriteLineAnswer (tag : MemTag) (answer : MemAnswer) (s : State) :
    exec (.anchorWriteLineAnswer tag answer) s = event (memoryAnswer tag answer) s := rfl
theorem exec_detachFinalAnchor (stream : StreamNo) (s : State) :
    exec (.detachFinalAnchor stream) s = innerEvent (tryDetachFinalAnchor stream) s := rfl
theorem exec_anchorReadAnswer (tag : MemTag) (answer : MemAnswer) (s : State) :
    exec (.anchorReadAnswer tag answer) s = event (memoryAnswer tag answer) s := rfl
theorem exec_resumeDescriptorAnswer (tag : MemTag) (answer : MemAnswer) (s : State) :
    exec (.resumeDescriptorAnswer tag answer) s = event (memoryAnswer tag answer) s := rfl
theorem exec_scanReadAnswer (tag : MemTag) (answer : MemAnswer) (s : State) :
    exec (.scanReadAnswer tag answer) s = event (memoryAnswer tag answer) s := rfl
theorem exec_engineClaimHandoff (s : State) : exec .engineClaimHandoff s = innerEvent tryEngineClaimHandoff s := rfl
theorem exec_holdingEnd (s : State) : exec .holdingEnd s = innerEvent tryHoldingEnd s := rfl
theorem exec_resumedHoldingEnd (s : State) : exec .resumedHoldingEnd s = innerEvent tryResumedHoldingEnd s := rfl
theorem exec_journalReadAnswer (tag : MemTag) (answer : MemAnswer) (s : State) :
    exec (.journalReadAnswer tag answer) s = event (memoryAnswer tag answer) s := rfl
theorem exec_restoreWriteAnswer (tag : MemTag) (answer : MemAnswer) (s : State) :
    exec (.restoreWriteAnswer tag answer) s = event (memoryAnswer tag answer) s := rfl
theorem exec_truncationDescriptorAnswer (tag : MemTag) (answer : MemAnswer) (s : State) :
    exec (.truncationDescriptorAnswer tag answer) s = event (memoryAnswer tag answer) s := rfl
theorem exec_commandFetchIssue (s : State) : exec .commandFetchIssue s = innerEvent tryCommandFetchIssue s := rfl
theorem exec_commandFetchAnswer (tag : MemTag) (answer : MemAnswer) (s : State) :
    exec (.commandFetchAnswer tag answer) s = event (memoryAnswer tag answer) s := rfl
theorem exec_commandRecordTaken (s : State) : exec .commandRecordTaken s = innerEvent tryCommandRecordTaken s := rfl
theorem exec_nop (head : CmdHead) (s : State) : exec (.nop head) s = event (takeRecord head 0x00 (runNop head)) s := rfl
theorem exec_identify (head : CmdHead) (s : State) :
    exec (.identify head) s = event (takeRecord head 0x01 (runIdentify head)) s := rfl
theorem exec_configure (head : CmdHead) (hold notify : BitVec 8) (s : State) :
    exec (.configure head hold notify) s = event (takeRecord head 0x02 (runConfigure head hold notify)) s := rfl
theorem exec_setRegion (head : CmdHead) (base : BitVec 64) (exponent stream : BitVec 8) (s : State) :
    exec (.setRegion head base exponent stream) s =
      event (takeRecord head 0x10 (runSetRegion head base exponent stream)) s := rfl
theorem exec_setMode (head : CmdHead) (mode : BitVec 8) (s : State) :
    exec (.setMode head mode) s = event (takeRecord head 0x11 (runSetMode head mode)) s := rfl
theorem exec_queryRegion (head : CmdHead) (s : State) :
    exec (.queryRegion head) s = event (takeRecord head 0x12 (runQueryRegion head)) s := rfl
theorem exec_attachFresh (head : CmdHead) (policy stall : BitVec 8) (label : BitVec 32) (anchor first : BitVec 64) (s : State) :
    exec (.attachFresh head policy stall label anchor first) s =
      event (takeRecord head 0x20 (runAttachFresh head policy stall label anchor first)) s := rfl
theorem exec_attachResume (head : CmdHead) (anchor : BitVec 64) (s : State) :
    exec (.attachResume head anchor) s = event (takeRecord head 0x20 (runAttachResume head anchor)) s := rfl
theorem exec_detach (head : CmdHead) (s : State) :
    exec (.detach head) s = event (takeRecord head 0x21 (runDetach head)) s := rfl
theorem exec_extend (head : CmdHead) (descriptor : BitVec 64) (s : State) :
    exec (.extend head descriptor) s = event (takeRecord head 0x22 (runExtend head descriptor)) s := rfl
theorem exec_mark (head : CmdHead) (label : BitVec 32) (s : State) :
    exec (.mark head label) s = event (takeRecord head 0x23 (runMark head label)) s := rfl
theorem exec_release (head : CmdHead) (epoch : BitVec 32) (s : State) :
    exec (.release head epoch) s = event (takeRecord head 0x24 (runRelease head epoch)) s := rfl
theorem exec_rollback (head : CmdHead) (epoch : BitVec 32) (s : State) :
    exec (.rollback head epoch) s = event (takeRecord head 0x25 (runRollback head epoch)) s := rfl
theorem exec_queryStream (head : CmdHead) (item : BitVec 8) (s : State) :
    exec (.queryStream head item) s = event (takeRecord head 0x26 (runQueryStream head item)) s := rfl
theorem exec_deviceClear (head : Checked CmdHead) (s : State) :
    exec (.deviceClear head) s = readingEvent head.failed (takeRecord head.value 0x3F runDeviceClear) s := rfl
theorem exec_headLineWriteIssue (s : State) : exec .headLineWriteIssue s = innerEvent tryHeadLineWriteIssue s := rfl
theorem exec_headLineWriteAnswer (tag : Checked MemTag) (answer : MemAnswer) (s : State) :
    exec (.headLineWriteAnswer tag answer) s = readingEvent tag.failed (memoryAnswer tag.value answer) s := rfl
theorem exec_reportWriteIssue (s : State) : exec .reportWriteIssue s = innerEvent tryReportWriteIssue s := rfl
theorem exec_reportWriteAnswer (tag : Checked MemTag) (answer : MemAnswer) (s : State) :
    exec (.reportWriteAnswer tag answer) s = readingEvent tag.failed (memoryAnswer tag.value answer) s := rfl
theorem exec_holdSetDrained (s : State) : exec .holdSetDrained s = innerEvent tryHoldSetDrained s := rfl
theorem exec_faultRecordFirstLineAnswer (tag : MemTag) (answer : MemAnswer) (s : State) :
    exec (.faultRecordFirstLineAnswer tag answer) s = event (memoryAnswer tag answer) s := rfl
theorem exec_faultRecordClosingLineAnswer (tag : MemTag) (answer : MemAnswer) (s : State) :
    exec (.faultRecordClosingLineAnswer tag answer) s = event (memoryAnswer tag answer) s := rfl
theorem exec_abandonedTagAnswer (tag : MemTag) (answer : MemAnswer) (s : State) :
    exec (.abandonedTagAnswer tag answer) s = event (memoryAnswer tag answer) s := rfl
theorem exec_strayResponse (tag : Checked MemTag) (answer : MemAnswer) (s : State) :
    exec (.strayResponse tag answer) s = readingEvent tag.failed (memoryAnswer tag.value answer) s := rfl
theorem exec_coldReset (winsel : BitVec 8) (s : State) :
    exec (.coldReset winsel) s = .next { s with dev := Device.cold winsel } := rfl

end Sys2Proof.Machine
end

