-- ==== Sys2Proof/Laws/Streams.lean ====
section
/-! SUPPORT. What capture, the regions and the memory port leave of the stream contexts and of the other units: one lemma per
operation. -/
namespace Sys2Proof.Machine

/-- What a device `d` still has of the device `x` it came from: of each stream all but its position queue and its saturated
flag, of each region all but its admitted count, the reports in the queue, and the engine, the command unit, the check unit
and the straps whole. -/
structure StreamsKept (x d : Device) : Prop where
  streams : ∀ s, { d.streams.get s with positions := [], saturated := false } =
    { x.streams.get s with positions := [], saturated := false }
  engine : d.engine = x.engine
  command : d.command = x.command
  check : d.check = x.check
  winsel : d.winsel = x.winsel
  regions : ∀ r, { d.regions.get r with admitted := 0 } = { x.regions.get r with admitted := 0 }
  reports : x.report.queue <+: d.report.queue

theorem StreamsKept.refl (d : Device) : StreamsKept d d := 
  ⟨fun _ => rfl, rfl, rfl, rfl, rfl, fun _ => rfl, List.prefix_refl _⟩

/-- A change of fields that `StreamsKept` does not read. -/
theorem StreamsKept.same {x d d' : Device} (h : StreamsKept x d) (streams : d'.streams = d.streams)
    (engine : d'.engine = d.engine) (command : d'.command = d.command) (check : d'.check = d.check)
    (winsel : d'.winsel = d.winsel) (regions : d'.regions = d.regions) (report : d'.report = d.report) : StreamsKept x d' :=
  ⟨by rw [streams]; exact h.streams, engine.trans h.engine, command.trans h.command, check.trans h.check,
   winsel.trans h.winsel, by rw [regions]; exact h.regions, by rw [report]; exact h.reports⟩

theorem StreamsKept.foldl {α : Type} {x d : Device} (l : List α) {f : Device → α → Device} (h : StreamsKept x d)
    (hf : ∀ d a, StreamsKept x d → StreamsKept x (f d a)) : StreamsKept x (l.foldl f d) := by
  induction l generalizing d with
  | nil => exact h
  | cons a l ih => exact ih (hf d a h)

theorem StreamsKept.getD {x d : Device} {o : Option Device} (h : StreamsKept x d)
    (ho : ∀ d', o = some d' → StreamsKept x d') : StreamsKept x (o.getD d) := by
  cases o with
  | none => exact h
  | some d' => exact ho d' rfl

variable {x d : Device}

/-- A stream's position queue or saturated flag changes. -/
theorem StreamsKept.stream {f : Stream → Stream} (h : StreamsKept x d) (s : StreamNo)
    (hf : ∀ y, { f y with positions := [], saturated := false } = { y with positions := [], saturated := false }) :
    StreamsKept x (d.withStream s f) := by
  refine ⟨fun u => ?_, h.engine, h.command, h.check, h.winsel, h.regions, h.reports⟩
  by_cases e : s = u
  · subst e
    have k : (d.withStream s f).streams.get s = f (d.streams.get s) := Table.get_set _ _ _
    rw [k]
    exact (hf _).trans (h.streams s)
  · have k : (d.withStream s f).streams.get u = d.streams.get u := Table.get_set_of_ne _ e _
    rw [k]
    exact h.streams u

/-- A region's admitted count changes. -/
theorem withAdmitted_kept (h : StreamsKept x d) (r : RegionNo) (f : Nat → Nat) :
    StreamsKept x (d.withRegion r fun e => { e with admitted := f e.admitted }) := by
  refine ⟨h.streams, h.engine, h.command, h.check, h.winsel, fun u => ?_, h.reports⟩
  by_cases e : r = u
  · subst e
    have k : (d.withRegion r fun e => { e with admitted := f e.admitted }).regions.get r =
        { d.regions.get r with admitted := f (d.regions.get r).admitted } := Table.get_set _ _ _
    rw [k]
    exact h.regions r
  · have k : (d.withRegion r fun e => { e with admitted := f e.admitted }).regions.get u = d.regions.get u :=
      Table.get_set_of_ne _ e _
    rw [k]
    exact h.regions u

theorem withSlot_kept (h : StreamsKept x d) (k : SlotNo) (c : Option Slot) : StreamsKept x (d.withSlot k c) :=
  h.same rfl rfl rfl rfl rfl rfl rfl

theorem mapSlot_kept (h : StreamsKept x d) (k : SlotNo) (f : Slot → Slot) : StreamsKept x (d.mapSlot k f) :=
  h.same rfl rfl rfl rfl rfl rfl rfl

theorem withFilter_kept (h : StreamsKept x d) (l : List FilterEntry) : StreamsKept x (d.withFilter l) :=
  h.same rfl rfl rfl rfl rfl rfl rfl

theorem withRequest_kept (h : StreamsKept x d) (t : ReqTag) (q : Option Request) : StreamsKept x (d.withRequest t q) :=
  h.same rfl rfl rfl rfl rfl rfl rfl

theorem setRequestState_kept (h : StreamsKept x d) (t : ReqTag) (st : RequestState) : StreamsKept x (d.setRequestState t st) :=
  h.same rfl rfl rfl rfl rfl rfl rfl

theorem withArbiter_kept (h : StreamsKept x d) (f : Arbiter → Arbiter) : StreamsKept x (d.withArbiter f) :=
  h.same rfl rfl rfl rfl rfl rfl rfl

theorem withLock_kept (h : StreamsKept x d) (line : Nat) (f : LineLock → LineLock) : StreamsKept x (d.withLock line f) :=
  h.same rfl rfl rfl rfl rfl rfl rfl

theorem capture_kept (h : StreamsKept x d) (c : Capture) : StreamsKept x ({ d with capture := c }) :=
  h.same rfl rfl rfl rfl rfl rfl rfl

theorem leaveQueues_kept (h : StreamsKept x d) (p : Job → Bool) : StreamsKept x (leaveQueues p d) :=
  h.same rfl rfl rfl rfl rfl rfl rfl

theorem disown_kept (h : StreamsKept x d) (p : Job → Bool) : StreamsKept x (disown p d) :=
  h.same rfl rfl rfl rfl rfl rfl rfl

theorem discardLater_kept (h : StreamsKept x d) (p : Job → Bool) : StreamsKept x (discardLater p d) :=
  h.same rfl rfl rfl rfl rfl rfl rfl

theorem releaseLine_kept (h : StreamsKept x d) (line : Nat) : StreamsKept x (releaseLine line d) := by
  unfold releaseLine
  try dsimp -proj only
  repeat' first | with_reducible exact h | with_reducible assumption | (intro) | with_reducible apply withLock_kept | split

theorem takeLine_kept (h : StreamsKept x d) (line : Nat) (exclusive : Bool) : StreamsKept x (takeLine line exclusive d) := by
  unfold takeLine
  try dsimp -proj only
  repeat' first | with_reducible exact h | with_reducible assumption | (intro) | with_reducible apply withLock_kept | split

theorem joinLine_kept (h : StreamsKept x d) (line : Nat) (a : Asker) : StreamsKept x (joinLine line a d) := by
  unfold joinLine
  try dsimp -proj only
  repeat' first | with_reducible exact h | with_reducible assumption | (intro) | with_reducible apply withLock_kept | split

theorem leaveLine_kept (h : StreamsKept x d) (line : Nat) (t : ReqTag) : StreamsKept x (leaveLine line t d) := by
  unfold leaveLine
  try dsimp -proj only
  repeat' first | with_reducible exact h | with_reducible assumption | (intro) | with_reducible apply withLock_kept | split

theorem enterClass_kept (h : StreamsKept x d) (r : PortRequest) : StreamsKept x (enterClass r d) := by
  unfold enterClass
  try dsimp -proj only
  repeat' first | with_reducible exact h | with_reducible assumption | (intro) | with_reducible apply withArbiter_kept | split

theorem offer_kept (h : StreamsKept x d) (r : PortRequest) : StreamsKept x (offer r d) := by
  unfold offer
  try dsimp -proj only
  repeat' first | with_reducible exact h | with_reducible assumption | (intro) | with_reducible apply enterClass_kept | with_reducible apply joinLine_kept | with_reducible apply takeLine_kept | split

theorem offerAll_kept (h : StreamsKept x d) (rs : List PortRequest) : StreamsKept x (offerAll rs d) := by
  unfold offerAll
  try dsimp -proj only
  repeat' first | with_reducible exact h | with_reducible assumption | (intro) | with_reducible apply offer_kept | with_reducible apply StreamsKept.foldl | split

theorem withdraw_kept (h : StreamsKept x d) (p : Job → Bool) : StreamsKept x (withdraw p d) := by
  unfold withdraw
  try dsimp -proj only
  repeat' first | with_reducible exact h | with_reducible assumption | (intro) | with_reducible apply leaveQueues_kept | with_reducible apply releaseLine_kept | with_reducible apply withArbiter_kept | with_reducible apply StreamsKept.foldl | split

theorem abandon_kept (h : StreamsKept x d) (p : Job → Bool) : StreamsKept x (abandon p d) := by
  unfold abandon
  try dsimp -proj only
  repeat' first | with_reducible exact h | with_reducible assumption | (intro) | with_reducible apply disown_kept | with_reducible apply withdraw_kept | split

theorem forward_kept (h : StreamsKept x d) (t : ReqTag) : StreamsKept x (forward t d) := by
  unfold forward
  try dsimp -proj only
  repeat' first | with_reducible exact h | with_reducible assumption | (intro) | with_reducible apply enterClass_kept | with_reducible apply setRequestState_kept | split

theorem respond_kept (h : StreamsKept x d) (t : ReqTag) (answer : Response) : StreamsKept x (respond t answer d) := by
  unfold respond
  split
  · exact h
  · rename_i q _
    dsimp -proj only
    have e : StreamsKept x { d with
        path := { d.path with requests := d.path.requests.set t none, waitMode := d.path.waitMode.filter (· != t) }
        responses := d.responses ++ [(t, answer)] } := h.same rfl rfl rfl rfl rfl rfl rfl
    split
    · split
      · exact e
      · exact withAdmitted_kept e _ (· - 1)
    · exact e

theorem pushReport_kept (h : StreamsKept x d) (r : Report) : StreamsKept x (pushReport r d) := by
  refine ⟨h.streams, h.engine, h.command, h.check, h.winsel, h.regions, h.reports.trans ?_⟩
  change d.report.queue <+: (d.report.push r).queue
  unfold ReportUnit.push
  split
  · split
    · exact List.prefix_append _ _
    · exact List.prefix_refl _
  · exact List.prefix_append _ _

theorem removeEntries_kept (h : StreamsKept x d) (p : FilterEntry → Bool) : StreamsKept x (removeEntries p d) := by
  unfold removeEntries
  try dsimp -proj only
  repeat' first | with_reducible exact h | with_reducible assumption | (intro) | with_reducible apply mapSlot_kept | with_reducible apply withFilter_kept | with_reducible apply StreamsKept.foldl | split

theorem removeStreamEntries_kept (h : StreamsKept x d) (s : StreamNo) : StreamsKept x (removeStreamEntries s d) := by
  unfold removeStreamEntries
  try dsimp -proj only
  repeat' first | with_reducible exact h | with_reducible assumption | (intro) | with_reducible apply removeEntries_kept | split

theorem removeSlotEntry_kept (h : StreamsKept x d) (k : SlotNo) : StreamsKept x (removeSlotEntry k d) := by
  unfold removeSlotEntry
  try dsimp -proj only
  repeat' first | with_reducible exact h | with_reducible assumption | (intro) | with_reducible apply removeEntries_kept | split

theorem enterFilter_kept (h : StreamsKept x d) (k : SlotNo) (c : Slot) : StreamsKept x (enterFilter k c d) := by
  unfold enterFilter
  dsimp -proj only
  have s := h.stream (f := fun y => { y with saturated := true }) c.stream fun _ => rfl
  split
  · exact withFilter_kept h _
  · split
    · exact s
    · exact pushReport_kept s _

theorem takeSlot_kept (h : StreamsKept x d) (t : ReqTag) (k : SlotNo) : StreamsKept x (takeSlot t k d) := by
  unfold takeSlot
  try dsimp -proj only
  repeat' first | with_reducible exact h | with_reducible assumption | (intro) | with_reducible apply enterClass_kept | with_reducible apply enterFilter_kept | with_reducible apply setRequestState_kept | with_reducible apply withSlot_kept | split

theorem trySlotQueueService_kept {k : SlotNo} {d' : Device} (h : StreamsKept x d) (e : trySlotQueueService k d = some d') : StreamsKept x d' := by
  unfold trySlotQueueService at e
  try dsimp -proj only at e
  repeat' split at e
  all_goals first | cases e | skip
  all_goals repeat' first | with_reducible exact h | with_reducible assumption | (intro) | with_reducible apply takeSlot_kept | with_reducible apply capture_kept | split

theorem freeSlot_kept (h : StreamsKept x d) (k : SlotNo) : StreamsKept x (freeSlot k d) := by
  unfold freeSlot
  try dsimp -proj only
  repeat' first | with_reducible exact h | with_reducible assumption | (intro) | with_reducible apply StreamsKept.getD | with_reducible refine trySlotQueueService_kept ?_ (by assumption) | with_reducible apply withSlot_kept | split

theorem answerOwner_kept (h : StreamsKept x d) (owner : Option ReqTag) (line : Nat) (a : Response) : StreamsKept x (answerOwner owner line a d) := by
  unfold answerOwner
  try dsimp -proj only
  repeat' first | with_reducible exact h | with_reducible assumption | (intro) | with_reducible apply releaseLine_kept | with_reducible apply respond_kept | split

theorem leavePositions_kept (h : StreamsKept x d) (k : SlotNo) (s : StreamNo) : StreamsKept x (leavePositions k s d) :=
  h.stream s fun _ => rfl

theorem cancelSlot_kept (h : StreamsKept x d) (k : SlotNo) : StreamsKept x (cancelSlot k d) := by
  unfold cancelSlot
  try dsimp -proj only
  repeat' first | with_reducible exact h | with_reducible assumption | (intro) | with_reducible apply answerOwner_kept | with_reducible apply freeSlot_kept | with_reducible apply leavePositions_kept | with_reducible apply removeSlotEntry_kept | with_reducible apply respond_kept | with_reducible apply withSlot_kept | with_reducible apply withdraw_kept | split

theorem loseWritingSlot_kept (h : StreamsKept x d) (k : SlotNo) (c : Slot) : StreamsKept x (loseWritingSlot k c d) := by
  unfold loseWritingSlot
  try dsimp -proj only
  repeat' first | with_reducible exact h | with_reducible assumption | (intro) | with_reducible apply freeSlot_kept | with_reducible apply withSlot_kept | split

theorem loseSlot_kept (h : StreamsKept x d) (k : SlotNo) : StreamsKept x (loseSlot k d) := by
  unfold loseSlot
  try dsimp -proj only
  repeat' first | with_reducible exact h | with_reducible assumption | (intro) | with_reducible apply answerOwner_kept | with_reducible apply cancelSlot_kept | with_reducible apply freeSlot_kept | with_reducible apply loseWritingSlot_kept | split

theorem loseWrite_kept (h : StreamsKept x d) (s : StreamNo) (t : ReqTag) : StreamsKept x (loseWrite s d t) := by
  unfold loseWrite
  try dsimp -proj only
  repeat' first | with_reducible exact h | with_reducible assumption | (intro) | with_reducible apply leaveLine_kept | with_reducible apply loseSlot_kept | with_reducible apply releaseLine_kept | with_reducible apply respond_kept | split

theorem leaveSlotQueue_kept (h : StreamsKept x d) (s : StreamNo) : StreamsKept x (leaveSlotQueue s d) :=
  h.same rfl rfl rfl rfl rfl rfl rfl

theorem loseCaptures_kept (h : StreamsKept x d) (s : StreamNo) : StreamsKept x (loseCaptures s d) := by
  refine StreamsKept.stream (f := fun y => { y with saturated := false }) (removeStreamEntries_kept ?_ _) s fun _ => rfl
  refine StreamsKept.foldl _ (StreamsKept.foldl _ (leaveSlotQueue_kept h s) fun _ t k => loseWrite_kept k s t) fun _ p k => ?_
  split
  · exact k
  · exact loseSlot_kept k _

theorem leaveJournal_kept (h : StreamsKept x d) (r : RegionNo) (left : Mode) : StreamsKept x (leaveJournal r left d) := by
  unfold leaveJournal
  try dsimp -proj only
  repeat' first | with_reducible exact h | with_reducible assumption | (intro) | with_reducible apply removeEntries_kept | split

/-! ### Operations that leave most of the device whole -/

/-- Removing filter entries changes the filter and unlinks slots, and nothing else (R45). -/
theorem removeEntries_capture (p : FilterEntry → Bool) (d : Device) :
    removeEntries p d = { d with capture := (removeEntries p d).capture } := by
  have h : ∀ (es : List FilterEntry) (e : Device),
      es.foldl (fun d e => match e.state with
        | .pending k => d.mapSlot k fun c => { c with linked := false }
        | .captured => d) e =
      { e with capture := (es.foldl (fun d e => match e.state with
        | .pending k => d.mapSlot k fun c => { c with linked := false }
        | .captured => d) e).capture } := by
    intro es
    induction es with
    | nil => exact fun _ => rfl
    | cons a es ih =>
      intro e
      rw [List.foldl_cons]
      cases c : a.state with
      | captured => exact ih e
      | pending k => exact (ih _).trans rfl
  obtain ⟨y, hy, e⟩ : ∃ y : Device, y = { d with capture := y.capture } ∧
      removeEntries p d = y.withFilter (d.capture.filter.filter fun e => !p e) := ⟨_, h _ d, rfl⟩
  rw [e, hy]
  rfl

theorem removeEntries_streams (p : FilterEntry → Bool) (d : Device) : (removeEntries p d).streams = d.streams := by
  rw [removeEntries_capture]

/-- A withdrawal changes lock state and the Arbiter alone (R24, R33). -/
theorem withdraw_eq (p : Job → Bool) (d : Device) : withdraw p d =
    { d with path := { d.path with locks := (withdraw p d).path.locks }, arbiter := (withdraw p d).arbiter } := by
  have h : ∀ (rs : List PortRequest) (e : Device),
      rs.foldl (fun d r => if r.job.ownsLine then releaseLine r.line d else d) e =
        { e with path := { e.path with
          locks := (rs.foldl (fun d r => if r.job.ownsLine then releaseLine r.line d else d) e).path.locks } } := by
    intro rs
    induction rs with
    | nil => exact fun _ => rfl
    | cons r rs ih =>
      intro e
      rw [List.foldl_cons]
      by_cases c : r.job.ownsLine = true
      · rw [if_pos c]
        conv => lhs; rw [ih]
        rfl
      · rw [if_neg c]
        conv => lhs; rw [ih]
  unfold withdraw
  dsimp -proj only
  conv => lhs; rw [h]
  conv => rhs; rw [h]
  rfl

/-- A withdrawal takes the named requests out of their classes and leaves the tags alone (R33). -/
theorem withdraw_arbiter (p : Job → Bool) (d : Device) : (withdraw p d).arbiter =
    { d.arbiter with waiting := d.arbiter.waiting.filter fun r => !p r.job } := by
  have h : ∀ (rs : List PortRequest) (e : Device),
      (rs.foldl (fun d r => if r.job.ownsLine then releaseLine r.line d else d) e).arbiter = e.arbiter := by
    intro rs
    induction rs with
    | nil => exact fun _ => rfl
    | cons r rs ih =>
      intro e
      rw [List.foldl_cons, ih]
      by_cases c : r.job.ownsLine = true
      · rw [if_pos c]; rfl
      · rw [if_neg c]
  exact h _ _

/-- So does an abandonment. -/
theorem abandon_eq (p : Job → Bool) (d : Device) : abandon p d =
    { d with path := { d.path with locks := (abandon p d).path.locks }, arbiter := (abandon p d).arbiter } := by
  have h := congrArg (disown p) (withdraw_eq p d)
  exact h

theorem withdraw_streams (p : Job → Bool) (d : Device) : (withdraw p d).streams = d.streams := by
  have h := congrArg Device.streams (withdraw_eq p d)
  exact h

theorem abandon_streams (p : Job → Bool) (d : Device) : (abandon p d).streams = d.streams := by
  have h := congrArg Device.streams (abandon_eq p d)
  exact h

theorem abandon_check (p : Job → Bool) (d : Device) : (abandon p d).check = d.check := by
  have h := congrArg Device.check (abandon_eq p d)
  exact h

theorem abandon_report (p : Job → Bool) (d : Device) : (abandon p d).report = d.report := by
  have h := congrArg Device.report (abandon_eq p d)
  exact h

/-- Dropping resume modes changes the regions alone (R116). -/
theorem dropResume_eq (s : StreamNo) (d : Device) : dropResume s d = { d with regions := (dropResume s d).regions } := by
  have h : ∀ (rs : List RegionNo) (e : Device),
      rs.foldl (fun d r => d.withRegion r fun e => { e with resume := none }) e =
        { e with regions := (rs.foldl (fun d r => d.withRegion r fun e => { e with resume := none }) e).regions } := by
    intro rs
    induction rs with
    | nil => exact fun _ => rfl
    | cons r rs ih =>
      intro e
      rw [List.foldl_cons]
      conv => lhs; rw [ih]
      rfl
  exact h _ _

theorem dropResume_streams (s : StreamNo) (d : Device) : (dropResume s d).streams = d.streams := by
  have h := congrArg Device.streams (dropResume_eq s d)
  exact h

theorem dropResume_report (s : StreamNo) (d : Device) : (dropResume s d).report = d.report := by
  have h := congrArg Device.report (dropResume_eq s d)
  exact h

/-- Degradation changes regions and the Capture Unit alone (R14). -/
theorem degradeRegions_eq (s : StreamNo) (d : Device) : degradeRegions s d =
    { d with regions := (degradeRegions s d).regions, capture := (degradeRegions s d).capture } := by
  have h : ∀ (rs : List RegionNo) (e : Device), rs.foldl degradeRegion e =
      { e with regions := (rs.foldl degradeRegion e).regions, capture := (rs.foldl degradeRegion e).capture } := by
    intro rs
    induction rs with
    | nil => exact fun _ => rfl
    | cons r rs ih =>
      intro e
      rw [List.foldl_cons]
      conv => lhs; rw [ih]
      unfold degradeRegion leaveJournal
      split
      · rw [if_pos rfl, removeEntries_capture]; rfl
      · rfl
  exact h _ _

theorem engineFails_streams (s : StreamNo) (d : Device) : (engineFails s d).streams = d.streams := by
  unfold engineFails
  split
  · exact (abandon_streams _ _).trans (dropResume_streams s d)
  · rfl

theorem engineFails_check (s : StreamNo) (d : Device) : (engineFails s d).check = d.check := by
  unfold engineFails
  split
  · exact (abandon_kept (StreamsKept.refl _) isEngineJob).check.trans (by rw [dropResume_eq])
  · rfl

theorem withStream_check (s : StreamNo) (f : Stream → Stream) (d : Device) : (d.withStream s f).check = d.check := rfl

theorem pushReport_check (r : Report) (d : Device) : (pushReport r d).check = d.check := rfl

theorem discardLater_check (p : Job → Bool) (d : Device) : (discardLater p d).check = d.check := rfl

theorem streamDone_check (s : StreamNo) (r : Report) (d : Device) : (streamDone s r d).check = d.check := rfl

theorem failOperations_check (s : StreamNo) (y : Stream) (g : Engine) (cause : Cause) (sequence address : Nat)
    (d : Device) : (failOperations s y g cause sequence address d).check = d.check := by
  unfold failOperations
  cases y.operation <;> cases y.extension <;> rfl

/-- Stream loss leaves the Check Unit as it is (R78). -/
theorem loseStream_check (s : StreamNo) (cause : Cause) (broken : Bool) (sequence address : Nat) (d : Device) :
    (loseStream s cause broken sequence address d).check = d.check := by
  unfold loseStream
  dsimp -proj only
  rw [engineFails_check, withStream_check, withStream_check]
  refine Eq.trans (abandon_kept (loseCaptures_kept (StreamsKept.refl _) s) _).check ?_
  rw [degradeRegions_eq]
  dsimp only
  rw [failOperations_check, pushReport_check, discardLater_check, withStream_check]

/-- The freed list's reports leave the Check Unit as it is. -/
theorem testFreed_check (s : StreamNo) (d : Device) : (testFreed s d).check = d.check := by
  have h : ∀ (l : List FreedSegment) (g : FreedSegment → Report) (e : Device),
      (l.foldl (fun d f => pushReport (g f) d) e).check = e.check := by
    intro l g
    induction l with
    | nil => exact fun _ => rfl
    | cons a l ih =>
      intro e
      rw [List.foldl_cons, ih]
      rfl
  exact h _ _ _

/-- The freed list's reports leave the stream but for the list itself. -/
theorem testFreed_streams (s : StreamNo) (d : Device) : (testFreed s d).streams = d.streams.set s
    { d.streams.get s with freed := (d.streams.get s).freed.dropWhile (FreedSegment.settled (d.streams.get s).committed) } := by
  have h : ∀ (l : List FreedSegment) (g : FreedSegment → Report) (e : Device),
      (l.foldl (fun d f => pushReport (g f) d) e).streams = e.streams := by
    intro l g
    induction l with
    | nil => exact fun _ => rfl
    | cons a l ih =>
      intro e
      rw [List.foldl_cons, ih]
      rfl
  exact h _ _ _

/-- A contained check met while a device check is handled is dropped (R77, R163). -/
theorem streamFault_handling {d : Device} (h : normal d = false) (s : StreamNo) (cause : Cause) (sequence address : Nat) :
    streamFault s cause sequence address d = dropFault s d := by
  simp [streamFault, h]

/-- The dropped failure of a stream that no ATTACH is taking up changes nothing (R77, R163). -/
theorem dropFault_other {d : Device} {s : StreamNo} (opening : (d.streams.get s).state ≠ .opening)
    (resuming : (d.streams.get s).state ≠ .resuming) : dropFault s d = d := by
  simp [dropFault, opening, resuming]

/-- The dropped failure of an ATTACH (R131, R137, R163): what its requests leave, and what its context becomes. -/
theorem dropFault_attaching {d : Device} {s : StreamNo}
    (h : (d.streams.get s).state = .opening ∨ (d.streams.get s).state = .resuming) :
    dropFault s d = if keepsAnchorWrites d s then
        { abandon (isAttachJobOf s) d with streams := d.streams.set s (d.streams.get s).attachFailed }
      else
        { abandon (isAnchorWriteOf s) (abandon (isAttachJobOf s) d) with
          streams := d.streams.set s
            ({ d.streams.get s with anchorWaiting := none, anchorOutstanding := none } : Stream).attachFailed } := by
  simp only [dropFault, if_pos h, abandonAttach]
  split <;> simp [Device.withStream, abandon_streams]

/-- A failure that is dropped hands nothing to the Check Unit (R163). -/
theorem dropFault_check (s : StreamNo) (d : Device) : (dropFault s d).check = d.check := by
  by_cases h : (d.streams.get s).state = .opening ∨ (d.streams.get s).state = .resuming
  · rw [dropFault_attaching h]
    split <;> simp [abandon_check]
  · rw [not_or] at h
    rw [dropFault_other h.1 h.2]

/-- A failure that is dropped produces no report (R163). -/
theorem dropFault_report (s : StreamNo) (d : Device) : (dropFault s d).report = d.report := by
  by_cases h : (d.streams.get s).state = .opening ∨ (d.streams.get s).state = .resuming
  · rw [dropFault_attaching h]
    split <;> simp [abandon_report]
  · rw [not_or] at h
    rw [dropFault_other h.1 h.2]

/-- A failure that is dropped leaves every stream in its state (R163). -/
theorem dropFault_state (s t : StreamNo) (d : Device) : ((dropFault s d).streams.get t).state = (d.streams.get t).state := by
  by_cases h : (d.streams.get s).state = .opening ∨ (d.streams.get s).state = .resuming
  · rw [dropFault_attaching h]
    by_cases e : s = t
    · subst e; split <;> simp [Stream.attachFailed]
    · split <;> simp [Table.get_set_of_ne _ e]
  · rw [not_or] at h
    rw [dropFault_other h.1 h.2]

end Sys2Proof.Machine
end

