-- ==== Sys2Proof/Tests/Slice0.lean ====
section
/-! SUPPORT. Small tests: ill-formed commands refused, formats against hand-written bytes, and for the statements' hypotheses
states that meet them, with the outcome at the boundary values of their clauses. -/
namespace Sys2Proof.Tests
set_option Elab.async false
open Sys2Proof Sys2Proof.Machine

/-! ## Well-formed commands -/

theorem test_lineAddress : isLineAddress 0 = true ∧ isLineAddress (2 ^ 40 - 64) = true ∧ isLineAddress 63 = false
    ∧ isLineAddress (2 ^ 40) = false := by decide +kernel

theorem test_read_illFormed : (Instr.requesterRead 0 8).wellFormed = false
    ∧ (Instr.requesterRead 0 (2 ^ 40)).wellFormed = false ∧ (Instr.requesterRead 63 64).wellFormed = true := by decide +kernel

theorem test_write_illFormed : (Instr.requesterWrite 0 65 0 0).wellFormed = false
    ∧ (Instr.requesterWrite 0 (2 ^ 40) 0 0).wellFormed = false ∧ (Instr.requesterWrite 0 0 0 0).wellFormed = true := by
  decide +kernel

theorem test_lineGrant_illFormed : (Instr.lineGrant 32 none).wellFormed = false
    ∧ (Instr.lineGrant 0 (some .none)).wellFormed = false ∧ (Instr.lineGrant 0 (some .slots)).wellFormed = true := by
  decide +kernel

theorem test_failedCheck_illFormed : (Instr.memoryResponseLimit ⟨3, some .none⟩).wellFormed = false
    ∧ (Instr.deviceClear ⟨⟨77, false, 0⟩, some .none⟩).wellFormed = false
    ∧ (Instr.headLineWriteAnswer ⟨3, some .none⟩ .done).wellFormed = false
    ∧ (Instr.reportWriteAnswer ⟨3, some .none⟩ .done).wellFormed = false
    ∧ (Instr.strayResponse ⟨3, some .none⟩ .done).wellFormed = false
    ∧ (Instr.strayResponse ⟨3, some .engine⟩ .done).wellFormed = true := by decide +kernel

theorem test_commandTail_illFormed : (Instr.commandTail 0 (2 ^ 64)).wellFormed = false
    ∧ (Instr.commandTail 0 (2 ^ 64 - 1)).wellFormed = true := by decide +kernel

/-! ## Formats, from bytes written by hand -/

/-- The bytes of a text, the first lowest. -/
def packed : List Nat → Nat
  | [] => 0
  | b :: rest => b + 256 * packed rest

theorem test_crc : crc (BitVec.ofNat 72 (packed [0x31, 0x32, 0x33, 0x34, 0x35, 0x36, 0x37, 0x38, 0x39])) = 0xE3069283 := by
  decide +kernel

theorem test_record_mark : recordOpcode (BitVec.ofNat 512 (packed [0x23, 1, 0x34, 0x12, 2])) = 0x23
    ∧ recordHead (BitVec.ofNat 512 (packed [0x23, 1, 0x34, 0x12, 2])) = ⟨0x1234, true, 2⟩ := by decide +kernel

theorem test_descriptor : parseDescriptor (BitVec.ofNat 512 (packed [0xD5, 3, 0, 0, 16, 0, 0, 0, 0, 0, 2])) 0x10000 =
    ⟨0xD5, true, true, 16, 0x20000, 0⟩ := by decide +kernel

theorem test_report_bytes : Report.encode { kind := .modeReached, lap := true, number := 9, tag := 0x1234, region := 7 } =
    BitVec.ofNat 512 (packed [2, 1, 0x34, 0x12, 0, 0xFF, 7, 0, 9]) := by decide +kernel

theorem test_headLine_bytes : headLine 3 0x105 = BitVec.ofNat 512 (packed [3, 0, 0, 0, 0, 0, 0, 0, 5, 1]) := by decide +kernel

theorem test_faultClosing_bytes :
    faultClosingLine 2 (some (.internalState, .streamContext 1)) none ((Table.fill 4 .notAttempted).set 3 .notInvalidated) =
      BitVec.ofNat 512 (packed [0xC3, 0x5A, 0xA5, 0x3C, 2, 0, 0, 0, 32, 9, 0, 0, 0, 0, 0, 2]) := by decide +kernel

theorem test_window : windowBase 0 = 0xFFFFF000 ∧ windowBase 0xFF = 0xFFFFFFF000 := by decide +kernel

theorem test_generation : generationNewer 0 0xFFFFFFFF = true ∧ generationNewer 0x80000000 0 = false
    ∧ generationNewer 0x7FFFFFFF 0 = true ∧ generationNewer 5 5 = false := by decide +kernel

/-! ## Small parts -/

/-- A part with nothing waiting. -/
def at_ (d : Device) : State := ⟨[], d⟩

/-- The part after a command. -/
def after (c : Instr) (d : Device) : Device :=
  match exec c (at_ d) with
  | .next t => t.dev
  | _ => d

/-- The cold part. -/
def cold : Device := Device.cold 0

/-- The part with one request outstanding under tag 3. -/
def owed (r : PortRequest) (d : Device) : Device :=
  { d with arbiter := { d.arbiter with issued := [⟨3, r, r.job.portClass == .c5, false, 0⟩] } }

theorem owed_outstanding (r : PortRequest) (d : Device) : Outstanding (owed r d) 3 r := ⟨_, rfl, rfl, rfl⟩

/-- A read and a write of the part's own, of line 80h. -/
def aRead (j : Job) : PortRequest := ⟨j, 0x80, false, 0, 0⟩
/-- A write of the part's own, of line 80h. -/
def aWrite (j : Job) : PortRequest := ⟨j, 0x80, true, fullMask, 0⟩

/-- A descriptor of sixteen records. -/
def chainEnd (last : Bool) : Descriptor := ⟨0xD5, last, false, 16, 0x20000, 0x10040⟩

/-- An ACTIVE stream in its first segment, three records committed, two marks held. -/
def live : Stream := { Stream.cold with
  state := .active, anchorAddress := 0x800, stamp := 5, generation := 7, epoch := some 2, nextSequence := some 4
  committed := some 3, current := some ⟨0x10000, chainEnd true, 3⟩, history := [⟨0x10000, 0x20000, 16, 1, false⟩]
  marks := [⟨1, 0xAA, 1⟩, ⟨2, 0xBB, 3⟩] }

/-- The cold part with stream 1 as given. -/
def with1 (x : Stream) : Device := { cold with streams := cold.streams.set 1 x }

/-- The cold part with region 2 over 10000h to 10FFFh in a mode, bound to stream 1. -/
def region2 (m : Mode) : Region := ⟨0x10000, 12, some 1, m, m, .none, none, 0, false⟩

/-- A part with region 2 as given. -/
def withRegion2 (e : Region) (d : Device) : Device := { d with regions := d.regions.set 2 e }

/-- A pending request under requester tag 5. -/
def withRequest5 (q : Request) (d : Device) : Device :=
  { d with path := { d.path with requests := d.path.requests.set 5 (some q) } }

/-- A write of line 10000h, admitted under JOURNAL in region 2. -/
def heldWrite (st : RequestState) : Request := ⟨true, 0x10000, 1, 7, some 2, some 1, some 0, 0, st⟩

/-- A read of line 10000h that waits on region 2. -/
def waitingRead : Request := ⟨false, 0x10000, 0, 0, some 2, none, none, 0, .waitMode⟩

/-- A slot of stream 1 that captures line 10000h for requester tag 5. -/
def slot (p : SlotPhase) : Slot := ⟨some 5, 0x10000, 2, 1, 2, false, some 9, some 4, some 0x20180, 0, 0, false, p⟩

/-- A part with slot 6 as given. -/
def withSlot6 (c : Slot) (d : Device) : Device := { d with capture := { d.capture with slots := d.capture.slots.set 6 (some c) } }

/-- The head of a record with tag 77 and this target, without CHAIN. -/
def head (target : BitVec 8) : CmdHead := ⟨77, false, target⟩

/-- The status of the last report of the queue. -/
def lastStatus (d : Device) : Option Status := d.report.queue.getLast?.map (·.status)

/-- The kinds of the reports in the queue. -/
def kinds (d : Device) : List ReportKind := d.report.queue.map (·.kind)

/-! ## What the statements assume is met: the machine and the shared operations -/

/-- The cold part with this many reports in the queue. -/
def queued (n : Nat) : Device := { cold with report := { cold.report with queue := List.replicate n { kind := .check } } }

theorem cold_slots : ∀ k, cold.capture.slots.get k = none := by decide

theorem test_meets_idle : (at_ cold).pending = [] ∧ step (at_ cold) = .next (at_ { cold with now := 1 }) := ⟨rfl, rfl⟩

theorem test_meets_atRest : quiet cold = true := by decide +kernel

theorem test_meets_onlyGrantsSend : (∀ t, Instr.nop (head 0) ≠ .arbiterGrant t) ∧ (∀ w, Instr.nop (head 0) ≠ .coldReset w)
    ∧ exec (.nop (head 0)) (at_ cold) = .next (at_ (after (.nop (head 0)) cold)) := ⟨by simp, by simp, rfl⟩

theorem test_meets_invariants : TagPool cold ∧ AgeBounded cold ∧ LockTable cold ∧ NotifyRight cold
    ∧ step (at_ cold) = .next (at_ { cold with now := 1 }) :=
  ⟨⟨by decide, by decide, by decide⟩, by unfold AgeBounded; decide, ⟨by decide, by decide⟩, rfl, rfl⟩

theorem test_meets_reportsQueued : asyncIndex .check = some 8 ∧ asyncIndex .commandDone = none
    ∧ (pushReport { kind := .check } (queued 15)).report.queue.length = 16
    ∧ (pushReport { kind := .check } (queued 16)).report.queue.length = 16
    ∧ (pushReport { kind := .check } (queued 16)).report.summary.total = 1
    ∧ (pushReport { kind := .commandDone } (queued 16)).report.queue.length = 17 := by decide +kernel

theorem test_meets_sharedOperations : (withRequest5 waitingRead cold).path.requests.get 5 = some waitingRead
    ∧ (lockOf cold 0x80).queue = [] ∧ (lockOf cold 0x80).hold = .free
    ∧ (lockOf (offer (aWrite .report) cold) 0x80).hold = .held
    ∧ (lockOf (offer (aRead .commandFetch) (offer (aWrite .report) cold)) 0x80).queue ≠ []
    ∧ cold.command.headAsked = false ∧ cold.command.headOutstanding = false
    ∧ (offerHeadLine cold).command.headWaiting = true ∧ (offerHeadLine cold).command.headAsked = true
    ∧ cold.capture.queue = [] := by decide +kernel

/-- Anchor contents with as many marks and history entries as fit. -/
def fullContents : AnchorContents where
  stamp := 1
  cleanDetach := false
  invalidated := false
  rollbackPending := true
  target := 3
  epoch := 9
  nextSequence := 4
  marks := List.replicate 8 ⟨0xFFFFFFFF, 7, 3⟩
  history := List.replicate 16 ⟨0x10000, 0xFFFFFFFF80, 16, 1, true⟩
  policy := .breakStream
  stallLimit := none

theorem test_meets_formats : fullContents.marks.length ≤ 8 ∧ fullContents.history.length ≤ 16 := by
  decide +kernel

/-! ## Requests, watched words and regions -/

theorem test_meets_uncovered : cold.path.requests.get 5 = none ∧ covering cold 0x80 = none ∧ (lockOf cold 0x80).queue = []
    ∧ (lockOf cold 0x80).hold = .free ∧ 0x80 ≠ windowBase cold.winsel ∧ covering cold (windowBase cold.winsel) = none := by
  decide +kernel

theorem test_meets_covered : (withRegion2 (region2 .hold) cold).path.requests.get 5 = none
    ∧ covering (withRegion2 (region2 .hold) cold) 0x10000 = some 2
    ∧ covering (withRegion2 (region2 .hold) cold) 0x10FC0 = some 2
    ∧ covering (withRegion2 (region2 .hold) cold) 0x11000 = none := by decide +kernel

theorem test_tagConflict : (withRequest5 waitingRead cold).path.requests.get 5 = some waitingRead
    ∧ kinds (after (.requesterRead 5 0x80) (withRequest5 waitingRead cold)) = [.check] := by decide +kernel

theorem test_watched_whole_and_part :
    (after (.requesterWrite 5 0xFFFFF000 0xFF (BitVec.ofNat 512 0x0200000000001000)) cold).command.ringSet = true
    ∧ kinds (after (.requesterWrite 5 0xFFFFF000 0x7F00 0) cold) = [.windowMisuse]
    ∧ kinds (after (.requesterWrite 5 0xFFFFF000 0x0100000000000000 0) cold) = [] := by decide +kernel

/-- The cold part with a command ring of four entries. -/
def ringed : Device := { cold with command := { cold.command with ringSet := true } }

theorem test_ringSetup_bounds : (after (.ringSetup 0x0200000000001000) cold).command.exponent = 2
    ∧ (after (.ringSetup 0x0800000000001000) cold).command.exponent = 8
    ∧ kinds (after (.ringSetup 0x0100000000001000) cold) = [.windowMisuse]
    ∧ kinds (after (.ringSetup 0x0900000000001000) cold) = [.windowMisuse]
    ∧ (after (.ringSetup 0x020000FFFFFFFF00) cold).command.ringSet = true
    ∧ kinds (after (.ringSetup 0x020000FFFFFFFF40) cold) = [.windowMisuse]
    ∧ (after (.ringSetup 0x02000000FFFFEF00) cold).command.ringSet = true
    ∧ kinds (after (.ringSetup 0x02000000FFFFEF40) cold) = [.windowMisuse] := by decide +kernel

theorem test_commandTail_bounds : (after (.commandTail 3 6) ringed).command.tail = 3
    ∧ (after (.commandTail 3 6) ringed).path.fence = 6 ∧ kinds (after (.commandTail 4 6) ringed) = [.windowMisuse]
    ∧ kinds (after (.commandTail 0 6) cold) = [.windowMisuse] := by decide +kernel

theorem test_reportSetup_bounds : (after (.reportSetup 0x0300000000001000) cold).report.exponent = 3
    ∧ (after (.reportSetup 0x0A00000000001000) cold).report.exponent = 10
    ∧ kinds (after (.reportSetup 0x0200000000001000) cold) = [.windowMisuse]
    ∧ kinds (after (.reportSetup 0x0B00000000001000) cold) = [.windowMisuse] := by decide +kernel

/-- The cold part with a report ring of eight entries, two of them written. -/
def reporting : Device := { cold with report := { cold.report with ringSet := true, producer := 2 } }

theorem test_reportAck_bounds : (after (.reportAck 0) reporting).report.acknowledged = 0
    ∧ kinds (after (.reportAck 0) reporting) = [] ∧ (after (.reportAck 2) reporting).report.acknowledged = 2
    ∧ kinds (after (.reportAck 3) reporting) = [.windowMisuse] ∧ kinds (after (.reportAck 16) reporting) = [.windowMisuse]
    ∧ (after (.reportAck 0) reporting).notify = true ∧ (after (.reportAck 2) reporting).notify = false := by decide +kernel

theorem test_faultAck : kinds (after (.faultAck 1) cold) = [.windowMisuse]
    ∧ (after (.faultAck 1) { cold with check := { cold.check with recordWritten := some 1 } }).check.recordWritten = none := by
  decide +kernel

/-- A part on which requester tag 5 waits on region 2. -/
def waiting (m : Mode) (q : Request) : Device :=
  withRegion2 (region2 m) (withRequest5 q { cold with path := { cold.path with waitMode := [5] } })

theorem test_meets_admission : oldestWaiting (waiting .pass waitingRead) 2 = some 5
    ∧ (waiting .pass waitingRead).path.requests.get 5 = some waitingRead ∧ waitingRead.covering = some 2
    ∧ (waiting .pass waitingRead).regions.get 2 = region2 .pass ∧ (region2 .pass).requested ≠ .off
    ∧ (region2 .pass).change = .none ∧ (region2 .pass).degrading = false ∧ (region2 .pass).effective ≠ .hold
    ∧ waitingRead.write = false ∧ (lockOf (waiting .pass waitingRead) waitingRead.line).queue = []
    ∧ (lockOf (waiting .pass waitingRead) waitingRead.line).hold = .free
    ∧ oldestWaiting (waiting .seal { waitingRead with write := true }) 2 = some 5
    ∧ (region2 .seal).requested ≠ .off ∧ (region2 .seal).effective = .seal ∧ waitingRead.line ≠ windowBase cold.winsel := by
  decide +kernel

/-- Region 2 on its way from one mode to another. -/
def changing (m n : Mode) (c : Change) : Region := { region2 m with requested := n, change := c }

theorem test_meets_changeApplied : (withRegion2 (changing .pass .seal (.tagged 9)) cold).regions.get 2 = changing .pass .seal (.tagged 9)
    ∧ (changing .pass .seal (.tagged 9)).change ≠ .none ∧ (changing .pass .seal (.tagged 9)).admitted = 0
    ∧ (changing .pass .seal (.tagged 9)).degrading = false ∧ (changing .pass .seal (.tagged 9)).requested ≠ .journal
    ∧ kinds (after (.modeChangeApplied 2) (withRegion2 (changing .pass .seal (.tagged 9)) cold)) = [.modeReached] := by
  decide +kernel

theorem test_meets_changeToJournal : (changing .hold .journal .internal).requested = .journal
    ∧ (∃ st, (changing .hold .journal .internal).stream = some st ∧ ((with1 live).streams.get st).state = .active)
    ∧ ((after (.modeChangeApplied 2) (withRegion2 (changing .hold .journal .internal) (with1 live))).regions.get 2).effective =
      .journal := by
  refine ⟨rfl, ⟨1, rfl, rfl⟩, ?_⟩
  decide +kernel

/-- A part with this lock of line 80h. -/
def locked (h : Hold) (q : List Asker) : Device := { cold with path := { cold.path with locks := [⟨0x80, h, q⟩] } }

theorem test_meets_lineGrant : (lockOf (locked .free [.own (aWrite .report)]) 0x80).queue = [.own (aWrite .report)]
    ∧ (lockOf (locked .free [.own (aWrite .report)]) 0x80).hold = .free
    ∧ (aRead .commandFetch).exclusive = false ∧ (lockOf (locked (.shared 1) [.own (aRead .commandFetch)]) 0x80).hold ≠ .held
    ∧ (lockOf (locked (.shared 1) [.upstream 5 false]) 0x80).queue = [.upstream 5 false]
    ∧ (withRequest5 { waitingRead with state := .waitOrder } (locked (.shared 1) [.upstream 5 false])).path.requests.get 5 =
      some { waitingRead with state := .waitOrder }
    ∧ waitingRead.stream = none
    ∧ tryLineGrant 0x80 (deviceCheck .internalState .filter cold) = none := by decide +kernel

/-- A part with these requests waiting at the memory port. -/
def offered (age : Nat) (rs : List PortRequest) : Device := { cold with arbiter := { cold.arbiter with waiting := rs, age := age } }

theorem test_meets_grant :
    arbiterChoice (withRequest5 { waitingRead with state := .ready } (offered 0 [aRead (.forward 5)])) = some (aRead (.forward 5))
    ∧ (∀ i ∈ (offered 0 [aRead (.forward 5)]).arbiter.issued, i.tag ≠ 3)
    ∧ (withRequest5 { waitingRead with state := .ready } cold).path.requests.get 5 = some { waitingRead with state := .ready }
    ∧ arbiterChoice (offered 0 [aWrite .report]) = some (aWrite .report) ∧ (aWrite .report).job.portClass ≠ .c5
    ∧ (aWrite .report).job ≠ .headLine ∧ (aWrite .report).job ≠ .faultClosing := by decide +kernel

theorem test_age_bounds : oldestOf (offered 8 [aRead (.forward 5), aWrite .report]) .c5 = some (aRead (.forward 5))
    ∧ arbiterChoice (offered 8 [aRead (.forward 5), aWrite .report]) = some (aRead (.forward 5))
    ∧ arbiterChoice (offered 7 [aRead (.forward 5), aWrite .report]) = some (aWrite .report)
    ∧ oldestOf (offered 8 [aWrite .report]) .c5 = none := by decide +kernel

/-! ## Capture and limits -/

/-- A part whose slot 6 is free and whose slot queue holds a write of stream 1. -/
def queuedWrite (n : Nat) : Device := withRegion2 (region2 .journal) (withRequest5 (heldWrite .waitSlot)
  { with1 live with capture := ⟨List.replicate n ⟨0, 0, .captured⟩, cold.capture.slots, [5]⟩ })

theorem test_meets_freeSlot : (queuedWrite 0).capture.slots.get 6 = none ∧ (queuedWrite 0).capture.queue = [5]
    ∧ (queuedWrite 0).path.requests.get 5 = some (heldWrite .waitSlot) ∧ (heldWrite .waitSlot).stream = some 1
    ∧ (heldWrite .waitSlot).covering = some 2 ∧ (queuedWrite 2047).capture.filter.length < 2048
    ∧ 2048 ≤ (queuedWrite 2048).capture.filter.length ∧ ((queuedWrite 2048).streams.get 1).saturated = false
    ∧ ((with1 { live with saturated := true }).streams.get 1).saturated = true := by
  refine ⟨rfl, rfl, rfl, rfl, rfl, ?_, ?_, rfl, rfl⟩
  · show (List.replicate 2047 _).length < 2048
    rw [List.length_replicate]
    decide
  · show 2048 ≤ (List.replicate 2048 _).length
    rw [List.length_replicate]

theorem test_meets_captureRead : (aRead (.capture 6)).write = false
    ∧ (owed (aRead (.capture 6)) (withSlot6 (slot .reading) cold)).capture.slots.get 6 = some (slot .reading)
    ∧ (slot .reading).phase = .reading ∧ (slot .reading).owner = some 5
    ∧ (owed (aRead (.capture 6)) (withSlot6 (slot .cancelled) cold)).capture.slots.get 6 = some (slot .cancelled)
    ∧ Outstanding (owed (aRead (.capture 6)) (withSlot6 (slot .reading) cold)) 3 (aRead (.capture 6)) :=
  ⟨rfl, rfl, rfl, rfl, rfl, owed_outstanding _ _⟩

/-- A part whose slot 6 in a phase belongs to the write of requester tag 5. -/
def capturing (p : SlotPhase) : Device := withSlot6 (slot p) (withRequest5 (heldWrite .capturing) (with1 live))

theorem test_meets_holdLimit : cold.command.holdLimit = some 10
    ∧ (withRequest5 (heldWrite .forwarded) cold).path.requests.get 5 = some (heldWrite .forwarded)
    ∧ (withRequest5 waitingRead cold).path.requests.get 5 = some waitingRead ∧ waitingRead.state = .waitMode
    ∧ (heldWrite .waitOrder).state = .waitOrder ∧ (heldWrite .waitSlot).state = .waitSlot
    ∧ slotOwnedBy (capturing .writing) 5 = some (6, slot .writing)
    ∧ slotOwnedBy (capturing .waitingPosition) 5 = some (6, slot .waitingPosition)
    ∧ slotOwnedBy (capturing .reading) 5 = some (6, slot .reading) ∧ captureIssued (capturing .reading) 6 = false
    ∧ captureIssued (owed (aRead (.capture 6)) (capturing .reading)) 6 = true
    ∧ (after (.holdLimitExpiry 5) (withRequest5 (heldWrite .waitOrder) cold)).responses = [(5, .retry)] := by decide +kernel

theorem test_meets_responseLimit :
    issuedAt (owed (aRead (.forward 5)) cold) 3 = some ⟨3, aRead (.forward 5), true, false, 0⟩
    ∧ issuedAt (owed (aWrite .faultClosing) cold) 3 = some ⟨3, aWrite .faultClosing, false, false, 0⟩
    ∧ (aWrite .faultClosing).job = .faultClosing ∧ (∀ g, (aWrite .report).job ≠ .forward g)
    ∧ (after (.memoryResponseLimit ⟨3, none⟩) (owed (aWrite .report) cold)).now = 4000 := by decide +kernel

/-- Stream 1, EXHAUSTED. -/
def exhausted : Stream := { live with state := .exhausted, stallStart := some 5, stallLimit := some 2 }

theorem test_meets_stallLimit : ((with1 exhausted).streams.get 1).state = .exhausted
    ∧ ((with1 exhausted).streams.get 1).stallStart = some 5 ∧ ((with1 exhausted).streams.get 1).stallLimit = some 2
    ∧ ((after (.stallLimitExpiry 1) (with1 exhausted)).streams.get 1).lossCause = some .stallLimit
    ∧ (after (.stallLimitExpiry 1) (with1 exhausted)).now = 4005 ∧ (live.state ≠ .exhausted) := by decide +kernel

theorem test_meets_answers : Outstanding (owed (aRead (.forward 5)) cold) 3 (aRead (.forward 5))
    ∧ Outstanding (owed (aWrite (.forward 5)) cold) 3 (aWrite (.forward 5)) ∧ (aWrite (.forward 5)).write = true
    ∧ tagFree cold 3 = true
    ∧ issuedAt { cold with arbiter := { cold.arbiter with issued := [⟨3, aRead .commandFetch, false, true, 0⟩] } } 3 =
      some ⟨3, aRead .commandFetch, false, true, 0⟩
    ∧ (∀ k, (aRead .commandFetch).job ≠ .capture k) :=
  ⟨owed_outstanding _ _, owed_outstanding _ _, rfl, rfl, rfl, by simp [aRead]⟩


/-! ## Records, commits and the chain -/

/-- Stream 1 with slot 6 in its position queue, and what the test sets. -/
def placing (x : Stream) : Device := withSlot6 (slot .waitingPosition) (with1 { x with positions := [(6, 2)] })

/-- A mark still to be placed, or placed at sequence 4. -/
def pendingAt (record : Option PlacedMark) : PendingMark := ⟨3, 0xCC, 8, record⟩

theorem test_meets_epochBoundary : recordToPlace (placing live) 1 = some (.slot 6)
    ∧ recordToPlace (with1 { live with pendingMark := some (pendingAt none), positions := [(7, 3), (6, 2)] }) 1 = some (.slot 6)
    ∧ recordToPlace (with1 { live with pendingMark := some (pendingAt none), positions := [(7, 3)] }) 1 = some .mark
    ∧ recordToPlace (withSlot6 (slot .reading) (with1 { live with pendingMark := some (pendingAt none) })) 1 = none
    ∧ recordToPlace (withSlot6 { slot .reading with epoch := 3 } (with1 { live with pendingMark := some (pendingAt none) })) 1 =
      some .mark := by decide +kernel

theorem test_meets_recordPlaced : (placing live).check.state = .normal ∧ ((placing live).streams.get 1).current.isSome = true
    ∧ (((after (.recordPlacement 1) (placing live)).capture.slots.get 6).bind (·.sequence)) = some 4
    ∧ (((after (.recordPlacement 1) (placing { live with nextSequence := some 4294967294 })).streams.get 1).nextSequence) =
      some 4294967295
    ∧ (((after (.recordPlacement 1) (placing { live with nextSequence := some 4294967295 })).streams.get 1).lossCause) =
      some .sequenceLimit
    ∧ (((after (.recordPlacement 1) (with1 { live with pendingMark := some (pendingAt none) })).streams.get 1).pendingMark.bind
      (·.record)) = some ⟨4, 0x20180, 0⟩ := by decide +kernel

/-- Stream 1 with a record to place and its current segment full. -/
def filled (x : Stream) : Device := placing { x with current := some ⟨0x10000, chainEnd true, 16⟩ }

theorem test_meets_segmentNeeded : (filled live).check.state = .normal ∧ live.entering = false ∧ live.anchorWaiting = none
    ∧ ((after (.recordPlacement 1) (filled { live with next := .held 0x10040 (chainEnd true) })).streams.get 1).entering = true
    ∧ ((after (.recordPlacement 1) (filled { live with next := .fetching 0x10040 })).streams.get 1).state = .active
    ∧ ((after (.recordPlacement 1) (filled live)).streams.get 1).state = .exhausted
    ∧ ((after (.recordPlacement 1) (filled { live with policy := .breakStream })).streams.get 1).state = .broken := by
  decide +kernel

theorem test_meets_recordLine :
    let d := owed (aWrite (.slotRecord 6 true)) (withSlot6 { slot .writing with linesWritten := 1 } (with1 live))
    Outstanding d 3 (aWrite (.slotRecord 6 true))
    ∧ Outstanding (owed (aWrite (.markRecord 1 true)) cold) 3 (aWrite (.markRecord 1 true)) :=
  ⟨owed_outstanding _ _, owed_outstanding _ _⟩

theorem test_recordLine_outcomes :
    let d (n : Nat) (lost : Bool) := owed (aWrite (.slotRecord 6 true))
      (withSlot6 { slot .writing with linesWritten := n, linesAnswered := n, lost := lost } (with1 live))
    ((after (.recordLineAnswer 3 .done) (d 0 false)).capture.slots.get 6).map (·.linesWritten) = some 1
    ∧ ((after (.recordLineAnswer 3 .done) (d 1 false)).streams.get 1).committed = some 4
    ∧ ((after (.recordLineAnswer 3 .error) (d 1 false)).streams.get 1).state = .faulted
    ∧ ((after (.recordLineAnswer 3 .error) (d 0 true)).capture.slots.get 6).map (·.linesAnswered) = some 1
    ∧ (after (.recordLineAnswer 3 .error) (d 1 true)).capture.slots.get 6 = none := by decide +kernel

theorem test_markLine_outcomes :
    let d (n : Nat) := owed (aWrite (.markRecord 1 true))
      (with1 { live with nextSequence := some 5, pendingMark := some (pendingAt (some ⟨4, 0x20180, n⟩)) })
    ((after (.recordLineAnswer 3 .done) (d 0)).streams.get 1).committed = some 3
    ∧ ((after (.recordLineAnswer 3 .done) (d 1)).streams.get 1).committed = some 4 := by decide +kernel

theorem test_meets_acknowledged : riseThrough (insertSequence 4 [5, 7]) 3 = ([7], 5)
    ∧ riseThrough (insertSequence 5 [7]) 3 = ([5, 7], 3) ∧ live.committed = some 3 ∧ live.state ≠ .broken
    ∧ live.state ≠ .faulted ∧ recordAcknowledged 1 4 (with1 { live with state := .broken }) =
      with1 { live with state := .broken } := by decide +kernel

/-- Stream 1 with its mark's record at sequence 3, and this many marks held. -/
def committing (n : Nat) : Stream :=
  { live with pendingMark := some (pendingAt (some ⟨3, 0x20100, 2⟩)), marks := (List.range n).map fun i => ⟨i, 0, 1⟩ }

theorem test_meets_markCommits : (committing 7).state = .active ∧ (committing 7).anchorWaiting = none
    ∧ (committing 7).committed = some 3 ∧ (committing 7).marks.length = 7
    ∧ ((testMark 1 (with1 (committing 7))).streams.get 1).marks.length = 8
    ∧ kinds (testMark 1 (with1 (committing 7))) = [] ∧ ((testMark 1 (with1 (committing 8))).streams.get 1).marks.length = 8
    ∧ kinds (testMark 1 (with1 (committing 8))) = [.markRetired] := by decide +kernel

/-- A descriptor line's contents with what the test sets. -/
def counted (count base link : Nat) (last : Bool) : Descriptor := ⟨0xD5, last, false, count, base, link⟩

theorem test_descriptor_bounds : (counted 15 0 0 true).valid 0 = false ∧ (counted 16 0 0 true).valid 0 = true
    ∧ (counted 65536 0 0 true).valid 0 = true ∧ (counted 65537 0 0 true).valid 0 = false
    ∧ (counted 16 64 0 true).valid 0 = false ∧ (counted 16 (2 ^ 40 - 2048) 0 true).valid 0 = true
    ∧ (counted 16 (2 ^ 40 - 1920) 0 true).valid 0 = false ∧ (counted 16 0 16 false).valid 0 = false
    ∧ (counted 16 0 (2 ^ 40) false).valid 0 = false ∧ (counted 16 0 (2 ^ 40 - 32) false).valid 0 = true
    ∧ (counted 16 0xFFFFE800 0 true).valid 0 = true ∧ (counted 16 0xFFFFE880 0 true).valid 0 = false
    ∧ (counted 16 0xFFFFFF80 0 true).valid 0 = false ∧ (counted 16 0x100000000 0 true).valid 0 = true := by decide +kernel

/-- A line that holds at its start a valid descriptor. -/
def goodLine : Line := BitVec.ofNat 512 (packed [0xD5, 1, 0, 0, 16, 0, 0, 0, 0, 0, 2])

/-- An EXTEND of stream 1 in a stage. -/
def extending (stage : ExtendStage) (x : Stream) : Stream := { x with extension := some ⟨9, 0x10040, stage⟩ }

theorem test_meets_descriptorFetch :
    let d (n : NextDescriptor) (e : Option Extension) :=
      owed (aRead (.descriptor 1)) (with1 { live with next := n, extension := e })
    Outstanding (d (.fetching 0x10040) none) 3 (aRead (.descriptor 1))
    ∧ ((after (.descriptorFetchAnswer 3 (.data goodLine)) (d (.fetching 0x10040) none)).streams.get 1).next =
      .held 0x10040 (parseDescriptor goodLine 0x10040)
    ∧ ((after (.descriptorFetchAnswer 3 (.data 0)) (d (.fetching 0x10040) none)).streams.get 1).lossCause =
      some .descriptorInvalid
    ∧ ((after (.descriptorFetchAnswer 3 .error) (d (.fetching 0x10040) none)).streams.get 1).lossCause =
      some .descriptorFetch
    ∧ kinds (after (.descriptorFetchAnswer 3 (.data goodLine)) (d (.fetching 0x10040) (some ⟨9, 0x10040, .fetching 0x10000⟩))) =
      [.commandDone]
    ∧ ((after (.descriptorFetchAnswer 3 (.data 0)) (d .absent none)).streams.get 1).next = .absent := by
  refine ⟨owed_outstanding _ _, ?_⟩
  decide +kernel

theorem test_meets_extend :
    let d (n : NextDescriptor) := with1 { extending .choosing live with next := n }
    (((after (.extendTargetChoice 1) (d .absent)).streams.get 1).extension.map (·.stage)) = some (.updating true 0x10000)
    ∧ (((after (.extendTargetChoice 1) (d (.held 0x10080 (chainEnd true)))).streams.get 1).extension.map (·.stage)) =
      some (.updating false 0x10080)
    ∧ lastStatus (after (.extendTargetChoice 1) (d (.held 0x10080 (chainEnd false)))) = some .chainNotEnded := by
  decide +kernel

theorem test_meets_extendUpdate :
    let d (j : Job) (w current : Bool) := owed ⟨j, 0x10000, w, 0, 0⟩ (with1 (extending (.updating current 0x10000) live))
    Outstanding (d (.updateRead 1) false true) 3 ⟨.updateRead 1, 0x10000, false, 0, 0⟩
    ∧ (after (.descriptorUpdateReadAnswer 3 (.data goodLine)) (d (.updateRead 1) false true)).arbiter.waiting.map (·.job) =
      [.updateWrite 1]
    ∧ ((after (.descriptorUpdateWriteAnswer 3 .done) (d (.updateWrite 1) true true)).streams.get 1).next = .fetching 0x10040
    ∧ ((after (.descriptorUpdateWriteAnswer 3 .done) (d (.updateWrite 1) true false)).streams.get 1).extensionLink =
      some 0x10040
    ∧ ((after (.descriptorUpdateWriteAnswer 3 .error) (d (.updateWrite 1) true false)).streams.get 1).lossCause =
      some .descriptorUpdate := by
  refine ⟨owed_outstanding _ _, ?_⟩
  decide +kernel

theorem test_taking : Taking cold ∧ Taking (queued 15) ∧ ¬ Taking (queued 16) :=
  ⟨⟨rfl, by decide, .inl rfl⟩, ⟨rfl, by decide, .inl rfl⟩, fun h => absurd h.queue (by decide)⟩

theorem test_extend_judged : lastStatus (after (.extend (head 4) 0x40) (with1 live)) = some .badArgument
    ∧ lastStatus (after (.extend (head 1) 0x10) (with1 live)) = some .badArgument
    ∧ lastStatus (after (.extend (head 1) (2 ^ 40)) (with1 live)) = some .badArgument
    ∧ lastStatus (after (.extend (head 1) 0x40) (with1 (extending .choosing live))) = some .streamBusy
    ∧ lastStatus (after (.extend (head 1) 0x40) cold) = some .streamState
    ∧ lastStatus (after (.extend (head 1) (2 ^ 40 - 32)) (with1 live)) = none := by decide +kernel

/-! ## Anchors and ATTACH -/

theorem test_attach_judged : lastStatus (after (.attachResume (head 1) 0x400) cold) = some .badArgument
    ∧ lastStatus (after (.attachResume (head 1) (2 ^ 40)) cold) = some .badArgument
    ∧ lastStatus (after (.attachResume (head 1) 0xFFFFF000) cold) = some .badArgument
    ∧ ((after (.attachResume (head 1) 0x100000000) cold).streams.get 1).state = .resuming
    ∧ ((after (.attachResume (head 1) (2 ^ 40 - 2048)) cold).streams.get 1).state = .resuming
    ∧ lastStatus (after (.attachFresh (head 1) 2 0 0 0x800 0) cold) = some .badArgument
    ∧ lastStatus (after (.attachFresh (head 1) 0 12 0 0x800 0) cold) = some .badArgument
    ∧ lastStatus (after (.attachFresh (head 1) 0 0 0 0x800 16) cold) = some .badArgument
    ∧ ((after (.attachFresh (head 1) 1 11 0 0x800 32) cold).streams.get 1).stallLimit = none
    ∧ ((after (.attachFresh (head 1) 1 10 0 0x800 32) cold).streams.get 1).stallLimit = some 10
    ∧ lastStatus (after (.attachResume (head 1) 0x800) (with1 live)) = some .streamState
    ∧ lastStatus (after (.attachResume (head 1) 0x800) (with1 { live with state := .resuming })) = some .streamBusy := by
  decide +kernel

theorem test_meets_attach : Unoccupied Stream.cold ∧ Stream.cold.state = .detached ∧ Stream.cold.invalidation = .none
    ∧ Unoccupied live ∧ ¬ Unoccupied { live with state := .rollingBack } :=
  ⟨⟨rfl, by decide, by decide⟩, rfl, rfl, ⟨rfl, by decide, by decide⟩, fun h => h.2.1 rfl⟩

/-- An offered anchor write. -/
def anchorOffer (o : List Occasion) (first : Nat) : Stream :=
  { live with anchorWaiting := some ⟨o, none⟩, history := [⟨0x10000, 0x20000, 16, first, false⟩] }

theorem test_meets_anchorIssue :
    ((anchorOffer [.release] 4).anchorOutstanding, (anchorOffer [.release] 4).history.getLast?.map (·.first)) = (none, some 4)
    ∧ (tryAnchorWriteIssue 1 (with1 (anchorOffer [.release] 4))).isSome = true
    ∧ tryAnchorWriteIssue 1 (with1 (anchorOffer [.entry 2] 5)) = none := by decide +kernel

/-- A part whose stream 1 has an anchor write outstanding, with this many lines answered. -/
def anchored (n : Nat) (o : List Occasion) : Device := owed (aWrite (.anchorWrite 1 0))
  (with1 { live with anchorOutstanding := some ⟨o, .b, 0xC00, 8, n⟩, operation := some ⟨.release, 9, 2, 0, 0, 1, 0⟩ })

theorem test_meets_anchorLine : Outstanding (anchored 14 []) 3 (aWrite (.anchorWrite 1 0))
    ∧ ((after (.anchorWriteLineAnswer 3 .done) (anchored 14 [])).streams.get 1).generation = 7
    ∧ ((after (.anchorWriteLineAnswer 3 .done) (anchored 15 [])).streams.get 1).generation = 8
    ∧ kinds (after (.anchorWriteLineAnswer 3 .done) (anchored 15 [.release])) = [.commandDone]
    ∧ ((after (.anchorWriteLineAnswer 3 .error) (anchored 15 [.release])).streams.get 1).lossCause = some .anchorWrite := by
  refine ⟨owed_outstanding _ _, ?_⟩
  decide +kernel

/-- A part whose engine serves stream 1 in a phase, up to the mark at sequence 3. -/
def rolling (p : Phase) (o : Origin) (x : Stream) : Device :=
  { with1 { x with state := .rollingBack, operation := some ⟨.rollback, 9, 2, 0xBB, 3, 0, 0⟩ } with
    engine := { Engine.cold with
      phase := p, owner := some 1, origin := o, tag := 9, targetEpoch := some 2, targetSequence := some 3
      walkTop := some 3, readPointer := some 3, applyPointer := some 3 } }

theorem test_meets_owners : ((rolling .pendingAnchor .command live).streams.get 1).operation.isSome = true
    ∧ (rolling .pendingAnchor .command live).engine.owner = some 1 ∧ (rolling .pendingAnchor .command live).check.state = .normal
    ∧ (tellOwner 1 (rolling .pendingAnchor .command live) (.pending 2)).engine.phase = .restoring
    ∧ (deviceCheck .command .none cold).check.state ≠ .normal := by decide +kernel

/-- An ATTACH RESUME whose other 31 lines are in, all zero. -/
def gathering (fresh : Bool) : Attach :=
  { fresh := fresh, readsOffered := true, failed := false, copyA := (Table.fill 16 (some 0)).set 0 none, copyB := Table.fill 16 (some 0)
    judged := false, firstAddress := 0, first := none, firstAnchored := false, target := none
    targetSequence := none, scan := none }

/-- A part that reads the first line of copy A of stream 1. -/
def readingAnchor (a : Attach) : Device := owed (aRead (.anchorRead 1 .a 0))
  (with1 { Stream.cold with state := .resuming, attach := some a, operation := some ⟨.attach, 9, 0, 0, 0, 0, 0⟩ })

theorem test_meets_anchorRead :
    Outstanding (readingAnchor (gathering false)) 3 (aRead (.anchorRead 1 .a 0)) ∧ bothCopies (gathering false) = none
    ∧ (bothCopies { gathering false with copyA := Table.fill 16 (some 0) }).isSome = true
    ∧ lastStatus (after (.anchorReadAnswer 3 (.data 0)) (readingAnchor (gathering false))) = some .anchorInvalid
    ∧ lastStatus (after (.anchorReadAnswer 3 (.data 0)) (readingAnchor { gathering false with copyB := Table.fill 16 none })) =
      none
    ∧ lastStatus (after (.anchorReadAnswer 3 .error) (readingAnchor (gathering false))) = some .failed := by
  refine ⟨owed_outstanding _ _, ?_⟩
  decide +kernel

/-- A scan of stream 1 that waits for the record at sequence 4. -/
def scanning : Attach := { gathering false with judged := true, scan := some ⟨4, 5, [⟨4, 0x20180, none, none⟩], 0, 0⟩ }

/-- A part on which stream 1 is RESUMING, with a read outstanding. -/
def resuming (j : Job) (next : Nat) : Device := owed (aRead j)
  (with1 { live with state := .resuming, attach := some scanning, nextSequence := some next
                     operation := some ⟨.attach, 9, 0, 0, 0, 0, 0⟩ })

theorem test_meets_scan : Outstanding (resuming (.resumeDescriptor 1) 4) 3 (aRead (.resumeDescriptor 1))
    ∧ (parseDescriptor goodLine 0x10000).valid 0 = true ∧ (parseDescriptor goodLine 0x10000).base = 0x20000
    ∧ (parseDescriptor goodLine 0x10000).count = 16
    ∧ lastStatus (after (.resumeDescriptorAnswer 3 (.data goodLine)) (resuming (.resumeDescriptor 1) 17)) = none
    ∧ lastStatus (after (.resumeDescriptorAnswer 3 (.data goodLine)) (resuming (.resumeDescriptor 1) 18)) = some .failed
    ∧ lastStatus (after (.resumeDescriptorAnswer 3 (.data 0)) (resuming (.resumeDescriptor 1) 4)) = some .failed
    ∧ lastStatus (after (.resumeDescriptorAnswer 3 .error) (resuming (.resumeDescriptor 1) 4)) = some .failed := by
  refine ⟨owed_outstanding _ _, ?_⟩
  decide +kernel

theorem test_meets_scanRead : Outstanding (resuming (.scanRead 1 4 false) 4) 3 (aRead (.scanRead 1 4 false))
    ∧ scanning.scan.isSome = true
    ∧ (((after (.scanReadAnswer 3 (.data 7)) (resuming (.scanRead 1 4 false) 4)).streams.get 1).attach.bind (·.scan)).map
      (·.window.head?) = some (some ⟨4, 0x20180, some 7, none⟩)
    ∧ lastStatus (after (.scanReadAnswer 3 .error) (resuming (.scanRead 1 4 false) 4)) = some .failed := by
  refine ⟨owed_outstanding _ _, ?_⟩
  decide +kernel

/-! ## Detach and rollback -/

theorem test_detach_judged : lastStatus (after (.detach (head 4)) cold) = some .badArgument
    ∧ lastStatus (after (.detach (head 3)) cold) = some .streamState
    ∧ lastStatus (after (.detach (head 1)) (with1 { live with state := .rollingBack })) = some .streamBusy
    ∧ lastStatus (after (.detach (head 1)) (withRegion2 (region2 .journal) (with1 live))) = some .streamState
    ∧ ((after (.detach (head 1)) (with1 live)).streams.get 1).state = .detaching
    ∧ ((after (.detach (head 1)) (with1 { live with state := .broken })).streams.get 1).state = .detached := by
  decide +kernel

theorem test_meets_finalAnchor :
    let x := { live with state := .detaching, operation := some ⟨.detach, 9, 0, 0, 0, 0, 0⟩ }
    x.committed = some 3 ∧ x.nextSequence = some (3 + 1) ∧ x.next = .absent ∧ x.extension = none
    ∧ (∀ k y, (with1 x).capture.slots.get k = some y → y.stream ≠ 1)
    ∧ (((after (.detachFinalAnchor 1) (with1 x)).streams.get 1).anchorOutstanding.map (·.occasions)) = some [.detach] := by
  refine ⟨rfl, rfl, rfl, rfl, ?_, ?_⟩
  · intro k y h
    have : cold.capture.slots.get k = some y := h
    rw [cold_slots k] at this
    nomatch this
  · decide +kernel

theorem test_rollback_judged : lastStatus (after (.rollback (head 1) 0) (with1 live)) = some .badArgument
    ∧ lastStatus (after (.rollback (head 4) 2) (with1 live)) = some .badArgument
    ∧ lastStatus (after (.rollback (head 1) 2) (with1 { live with state := .resuming })) = some .streamBusy
    ∧ lastStatus (after (.rollback (head 1) 2) cold) = some .streamState
    ∧ lastStatus (after (.rollback (head 1) 2) { with1 live with engine := { Engine.cold with phase := .holding } }) =
      some .engineBusy
    ∧ lastStatus (after (.rollback (head 1) 3) (with1 live)) = some .noSuchMark
    ∧ ((after (.rollback (head 1) 2) (with1 live)).streams.get 1).state = .rollingBack
    ∧ live.marks = [⟨1, 0xAA, 1⟩] ++ ⟨2, 0xBB, 3⟩ :: [] := by decide +kernel

theorem test_meets_holdRegion : (region2 .off).effective = .off ∧ (region2 .hold).effective = .hold
    ∧ (region2 .journal).effective ≠ .hold ∧ ((holdRegion (withRegion2 (region2 .journal) cold) 2).regions.get 2).effective = .hold
    ∧ ((holdRegion (withRegion2 (region2 .journal) cold) 2).regions.get 2).resume = some .journal := by decide +kernel

theorem test_meets_claim : (after .engineClaimHandoff
      { with1 { live with state := .resuming, resumedTarget := some 2, operation := some ⟨.attach, 9, 0, 0, 0, 0, 0⟩ } with
        engine := { Engine.cold with claims := [1] } }).engine.owner = some 1
    ∧ live.marks.find? (fun k => some k.epoch == some 2) = some ⟨2, 0xBB, 3⟩ := by decide +kernel

theorem test_meets_holdingEnd : (∀ r, (rolling .holding .command live).regions.get r = Region.cold)
    ∧ (∀ k, (rolling .holding .command live).capture.slots.get k = none) ∧ Region.cold.resume = none
    ∧ (after .holdingEnd (rolling .holding .command live)).engine.phase = .pendingAnchor
    ∧ (after .resumedHoldingEnd (rolling .holding .resume live)).engine.phase = .restoring := by decide +kernel

/-- A part whose engine waits for a read or a write while it walks. -/
def walking (r : PortRequest) : Device := owed r (rolling .restoring .command live)

theorem test_meets_walk : Outstanding (walking (aRead (.journalRead 3 false))) 3 (aRead (.journalRead 3 false))
    ∧ ((walking (aRead (.journalRead 3 false))).streams.get 1).state = .rollingBack
    ∧ ((after (.journalReadAnswer 3 .error) (walking (aRead (.journalRead 3 false)))).streams.get 1).lossCause =
      some .journalRead
    ∧ ((after (.restoreWriteAnswer 3 .error) (walking (aWrite (.restore 3)))).streams.get 1).lossCause = some .restoreWrite
    ∧ (let d := walking (aWrite (.restore 3))
       (after (.restoreWriteAnswer 3 .done) { d with engine := { d.engine with restores := 1, targetMet := true } }).engine.phase =
         .finalAnchor) := by
  refine ⟨owed_outstanding _ _, ?_⟩
  decide +kernel

theorem test_record_kinds : headerKind (1 : Line) = 1 ∧ headerKind (2 : Line) = 2 := by decide +kernel

theorem test_meets_truncation :
    let d := walking (aRead (.truncationDescriptor 1))
    let w := d.withStream 1 fun x => { x with history := [⟨0x10000, 0x20000, 16, 1, false⟩] }
    Outstanding w 3 (aRead (.truncationDescriptor 1)) ∧ (w.streams.get 1).anchorWaiting = none
    ∧ (after (.truncationDescriptorAnswer 3 (.data goodLine)) w).engine.phase = .finalAnchor
    ∧ ((after (.truncationDescriptorAnswer 3 (.data 0)) w).streams.get 1).lossCause = some .descriptorInvalid
    ∧ ((after (.truncationDescriptorAnswer 3 .error) w).streams.get 1).lossCause = some .descriptorFetch := by
  refine ⟨⟨_, rfl, rfl, rfl⟩, ?_⟩
  decide +kernel

theorem test_truncate_segments :
    let cut (first : Nat) := truncate 1 3 2 (rolling .restoring .command
      { live with history := [⟨0x10000, 0x20000, 16, 1, false⟩, ⟨0x10040, 0x30000, 16, first, false⟩] })
    (cut 3).engine.phase = .finalAnchor ∧ (cut 4).engine.phase = .truncating
    ∧ ((cut 4).streams.get 1).history.length = 1 ∧ ((cut 3).streams.get 1).stamp = 6 := by decide +kernel

/-! ## The Command Unit -/

/-- A part with a command ring, one record ahead, and the fetch in a state. -/
def fetching (f : FetchState) (c : ChainState) : Device :=
  { ringed with command := { ringed.command with tail := 1, fetch := f, chain := c } }

theorem test_meets_fetch : (∀ t, (fetching .idle .none).path.requests.get t = none)
    ∧ (after .commandFetchIssue (fetching .idle .none)).command.fetch = .fetching 0
    ∧ (after .commandFetchIssue ringed).command.fetch = .idle
    ∧ lastStatus (after (.commandFetchAnswer 3 (.data 0)) (owed (aRead .commandFetch) (fetching (.fetching 0) .none))) =
      some .ok
    ∧ lastStatus (after (.commandFetchAnswer 3 .error) (owed (aRead .commandFetch) (fetching (.fetching 0) .none))) =
      some .fetchError := by decide +kernel

theorem test_meets_recordTaken : lastStatus (after .commandRecordTaken (fetching (.held 0) .none)) = some .ok
    ∧ lastStatus (after .commandRecordTaken (fetching (.held 0) .following)) = some .ok
    ∧ lastStatus (after .commandRecordTaken (fetching (.held 0) .skipping)) = some .skipped
    ∧ lastStatus (after .commandRecordTaken (fetching .unreadable .none)) = some .fetchError
    ∧ (after .commandRecordTaken { ringed with command := { ringed.command with fetch := .held 0 } }).command.fetch = .idle
    ∧ (after .commandRecordTaken (fetching (.held 0) (.waiting 5))).command.fetch = .held 0 := by decide +kernel

theorem test_recordDecoded : lastStatus (runRecord 0x21 cold) = some .streamState ∧ lastStatus (runRecord 0x04 cold) = some .badOpcode
    ∧ lastStatus (runRecord (BitVec.ofNat 512 (packed [0x20, 0, 0, 0, 1, 0, 0, 0, 2])) cold) = some .badArgument
    ∧ recordHead (BitVec.ofNat 512 (packed [0x01, 1, 0x34, 0x12, 7])) = ⟨0x1234, true, 7⟩ := by decide +kernel

theorem test_chain : presented (.nop (head 0)) = some (head 0, 0)
    ∧ lastStatus (after (.nop (head 0)) (fetching .idle .skipping)) = some .skipped
    ∧ kinds (after (.nop (head 0)) (fetching .idle (.waiting 5))) = []
    ∧ kinds (after (.nop (head 0)) (queued 16)) = kinds (queued 16)
    ∧ (commandDone { kind := .commandDone, tag := 5 } (fetching .idle (.waiting 5))).command.chain = .following
    ∧ (commandDone { kind := .commandDone, tag := 5, status := .failed } (fetching .idle (.waiting 5))).command.chain =
      .skipping := by decide +kernel

theorem test_configure_bounds : lastStatus (after (.configure (head 0) 17 0) cold) = some .badArgument
    ∧ lastStatus (after (.configure (head 0) 0 3) cold) = some .badArgument
    ∧ (after (.configure (head 0) 16 2) cold).command = cold.command
    ∧ (after (.configure (head 0) 15 0) cold).command.holdLimit = none
    ∧ (after (.configure (head 0) 14 1) cold).command.holdLimit = some 14
    ∧ (let d (now : Nat) := { withRequest5 { waitingRead with state := .waitOrder } cold with now := now }
       (after (.configure (head 0) 3 2) (d 8)).responses = [] ∧ (after (.configure (head 0) 3 2) (d 9)).responses = [(5, .retry)]) := by
  decide +kernel

theorem test_query_bounds : lastStatus (after (.queryRegion (head 15)) cold) = some .ok
    ∧ lastStatus (after (.queryRegion (head 16)) cold) = some .badArgument
    ∧ lastStatus (after (.queryStream (head 3) 26) cold) = some .ok
    ∧ lastStatus (after (.queryStream (head 3) 27) cold) = some .badArgument
    ∧ lastStatus (after (.queryStream (head 4) 0) cold) = some .badArgument
    ∧ ((after (.queryStream (head 1) 3) (with1 live)).report.queue.map (·.epoch)) = [2]
    ∧ ((after (.queryStream (head 1) 9) (with1 live)).report.queue.map (·.first)) = [2]
    ∧ ((after (.queryStream (head 1) 10) (with1 live)).report.queue.map (·.address)) = [0x10000]
    ∧ ((after (.queryStream (head 1) 25) (with1 live)).report.queue.map (·.epoch)) = [1]
    ∧ ((after (.queryStream (head 1) 26) (rolling .restoring .command live)).report.queue.map (·.epoch)) = [2] := by
  decide +kernel

theorem test_setRegion_judged : lastStatus (after (.setRegion (head 16) 0 12 0) cold) = some .badArgument
    ∧ lastStatus (after (.setRegion (head 2) 0 11 0) cold) = some .badArgument
    ∧ lastStatus (after (.setRegion (head 2) 0 41 0) cold) = some .badArgument
    ∧ lastStatus (after (.setRegion (head 2) 0x800 12 0) cold) = some .badArgument
    ∧ lastStatus (after (.setRegion (head 2) 0 12 4) cold) = some .badArgument
    ∧ lastStatus (after (.setRegion (head 2) 0 40 0xFF) cold) = some .overlap
    ∧ lastStatus (after (.setRegion (head 2) 0x10000 12 3) cold) = some .ok
    ∧ lastStatus (after (.setRegion (head 3) 0x10000 12 3) (withRegion2 (region2 .pass) cold)) = some .overlap
    ∧ lastStatus (after (.setRegion (head 3) 0x11000 12 3) (withRegion2 (region2 .pass) cold)) = some .ok
    ∧ lastStatus (after (.setRegion (head 2) 0x11000 12 3) (withRegion2 (region2 .pass) cold)) = some .regionInUse := by
  decide +kernel

theorem test_setMode_judged :
    let d := withRegion2 (region2 .off) (with1 live)
    lastStatus (after (.setMode (head 16) 1) d) = some .badArgument
    ∧ lastStatus (after (.setMode (head 2) 5) d) = some .badArgument
    ∧ lastStatus (after (.setMode (head 2) 1) (withRegion2 { region2 .pass with degrading := true } cold)) = some .streamBusy
    ∧ lastStatus (after (.setMode (head 2) 2) (withRegion2 { region2 .pass with stream := none } cold)) = some .noStream
    ∧ lastStatus (after (.setMode (head 2) 1) (withRegion2 { region2 .off with base := 0xFFFFF000 } cold)) = some .overlap
    ∧ kinds (after (.setMode (head 2) 4) d) = [.commandDone, .modeReached]
    ∧ kinds (after (.setMode (head 2) 0) d) = [.commandDone, .modeReached]
    ∧ kinds (after (.setMode (head 2) 4) (withRegion2 { changing .pass .hold (.tagged 9) with admitted := 1 } (with1 live))) =
      [.commandDone, .modeSuperseded] := by decide +kernel

theorem test_mark_judged : lastStatus (after (.mark (head 4) 0) (with1 live)) = some .badArgument
    ∧ lastStatus (after (.mark (head 1) 0) (with1 { live with state := .rollingBack })) = some .streamBusy
    ∧ lastStatus (after (.mark (head 1) 0) cold) = some .streamState
    ∧ lastStatus (after (.mark (head 1) 0) (with1 { live with epoch := some 4294967295 })) = some .epochLimit
    ∧ ((after (.mark (head 1) 0) (with1 { live with epoch := some 4294967294 })).streams.get 1).epoch = some 4294967295 := by
  decide +kernel

theorem test_release_judged : lastStatus (after (.release (head 1) 0) (with1 live)) = some .badArgument
    ∧ lastStatus (after (.release (head 4) 2) (with1 live)) = some .badArgument
    ∧ lastStatus (after (.release (head 1) 2) (with1 { live with state := .rollingBack })) = some .streamBusy
    ∧ lastStatus (after (.release (head 1) 2) cold) = some .streamState
    ∧ lastStatus (after (.release (head 1) 3) (with1 live)) = some .noSuchMark
    ∧ kinds (after (.release (head 1) 2) (with1 live)) = [.markRetired]
    ∧ kinds (after (.release (head 1) 1) (with1 live)) = [] := by decide +kernel

/-! ## The part's own writes, and device checks -/

/-- A part with a head-line write waiting that has not asked for its line. -/
def headWaits : Device := { cold with command := { cold.command with headWaiting := true } }

theorem test_meets_headLine : (after .headLineWriteIssue headWaits).command.headAsked = true
    ∧ (after .headLineWriteIssue cold).command.headAsked = false
    ∧ arbiterChoice (offered 0 [aWrite .headLine]) = some (aWrite .headLine)
    ∧ (∀ i ∈ (offered 0 [aWrite .headLine]).arbiter.issued, i.tag ≠ 3)
    ∧ (after (.headLineWriteAnswer ⟨3, none⟩ .done) (owed (aWrite .headLine) headWaits)).command.headAsked = true
    ∧ (after (.headLineWriteAnswer ⟨3, none⟩ .error) (owed (aWrite .headLine) cold)).check.cause = some (.reportWrite, .none) := by
  decide +kernel

/-- A part with a report ring and this many reports in the queue. -/
def reports (n : Nat) : Device :=
  { queued n with report := { (queued n).report with ringSet := true, summary := { Summary.empty with total := 3 } } }

theorem test_meets_report : (after .reportWriteIssue (reports 1)).report.writing = true
    ∧ (after .reportWriteIssue (reports 0)).report.writing = false
    ∧ Outstanding (owed (aWrite .report) (reports 16)) 3 (aWrite .report)
    ∧ (mergeSummary (reports 16)).report.summary.total = 3 ∧ (mergeSummary (reports 15)).report.summary.total = 0
    ∧ (after (.reportWriteAnswer ⟨3, none⟩ .done) (owed (aWrite .report) (reports 16))).report.producer = 1
    ∧ (after (.reportWriteAnswer ⟨3, none⟩ .error) (owed (aWrite .report) (reports 1))).check.cause = some (.reportWrite, .none) := by
  refine ⟨by decide +kernel, by decide +kernel, owed_outstanding _ _, ?_⟩
  decide +kernel

/-- A part whose Check Unit is in a state. -/
def checking (c : CheckState) : Device := { cold with check := { cold.check with state := c, cause := some (.command, .none) } }

theorem test_deviceCheck_states : (deviceCheck .strayResponse .none cold).check.state = .hold
    ∧ (deviceCheck .strayResponse .none (checking .hold)).check.second = some (.strayResponse, .none)
    ∧ (deviceCheck .strayResponse .none (checking .record)).check.state = .close
    ∧ (deviceCheck .strayResponse .none (checking .invalidate)).check.state = .close
    ∧ deviceCheck .strayResponse .none (checking .close) = checking .close
    ∧ (after (.deviceClear ⟨head 0, none⟩) cold).check.cause = some (.command, .none) := by decide +kernel

theorem test_meets_handling : (checking .hold).check.holdSet = []
    ∧ (after .holdSetDrained (checking .hold)).check.state = .record
    ∧ (after .holdSetDrained cold).check.state = .normal
    ∧ (after (.faultRecordFirstLineAnswer 3 .done) (owed (aWrite .faultFirst) (checking .record))).check.state = .close
    ∧ (after (.faultRecordFirstLineAnswer 3 .error) (owed (aWrite .faultFirst) (checking .record))).check.state = .close
    ∧ (after (.faultRecordClosingLineAnswer 3 .done) (owed (aWrite .faultClosing) (checking .close))).check.recordWritten = some 1
    ∧ (after (.faultRecordClosingLineAnswer 3 .error) (owed (aWrite .faultClosing) (checking .close))).check.recordWritten = none
    ∧ (after (.faultRecordClosingLineAnswer 3 .error) (owed (aWrite .faultClosing) (checking .close))).check.clearCount = 1
    ∧ arbiterChoice (offered 0 [aWrite .faultClosing]) = some (aWrite .faultClosing) := by decide +kernel

/-- A part in DEVICE_INVALIDATE with stream 1 in the snapshot. -/
def invalidating (x : Stream) : Device :=
  let d := { with1 x with check := { cold.check with state := .invalidate, cause := some (.command, .none) } }
  { d with check := { d.check with snapshot := d.check.snapshot.set 1 (true, 0x800) } }

theorem test_invalidation_kinds :
    let stage (d : Device) := (startInvalidation d 1).check.stages.get 1
    stage (invalidating live) = .offered
    ∧ stage (invalidating { live with anchorOutstanding := some ⟨[], .b, 0xC00, 8, 3⟩ }) = .awaiting
    ∧ stage { invalidating live with check := { (invalidating live).check with lossStream := some 1 } } = .none
    ∧ stage (invalidating { live with state := .resuming, attach := some (gathering false) }) = .none := by decide +kernel

theorem test_deviceClear : (deviceClear (withRegion2 (region2 .pass) cold)).regions.get 2 =
      ⟨0x10000, 12, none, .off, .off, .none, none, 0, false⟩
    ∧ (deviceClear (withRequest5 waitingRead cold)).responses = [(5, .retry)]
    ∧ (deviceClear (withRequest5 { waitingRead with state := .forwarded } cold)).responses = [] := by decide +kernel

/-! ## Further forms of the rows above -/

/-- A part whose filter holds an entry of line 10000h. -/
def filtered (f : FilterState) (d : Device) : Device :=
  { d with capture := { d.capture with filter := [⟨0x10000, 2, f⟩] } }

theorem test_meets_lookup :
    let d := withRequest5 (heldWrite .waitOrder) (with1 live)
    ((handToCapture 5 0x10000 (filtered .captured d)).path.requests.get 5).map (·.state) = some .ready
    ∧ (((handToCapture 5 0x10000 (filtered (.pending 6) (withSlot6 { slot .writing with owner := none } d))).capture.slots.get 6).bind
      (·.owner)) = some 5
    ∧ ((handToCapture 5 0x10000 d).capture.slots.get 0).isSome = true
    ∧ (handToCapture 5 0x10000 { d with capture := { d.capture with slots := Table.fill 16 (some (slot .done)) } }).capture.queue =
      [5] := by decide +kernel

theorem test_meets_askUpstream :
    let d := withRequest5 waitingRead cold
    ((askUpstream 5 waitingRead d).path.requests.get 5).map (·.state) = some .ready
    ∧ (let held : Device := { d with path := { d.path with locks := [⟨0x10000, .held, []⟩] } }
       ((askUpstream 5 waitingRead held).path.requests.get 5).map (·.state) = some .waitOrder)
    ∧ (let shared : Device := { d with path := { d.path with locks := [⟨0x10000, .shared 1, []⟩] } }
       (lockOf (askUpstream 5 waitingRead shared) 0x10000).hold = .shared 2
       ∧ (lockOf (askUpstream 5 { waitingRead with write := true } shared) 0x10000).queue = [.upstream 5 true]) := by
  decide +kernel

theorem test_admission_forms :
    ((after (.requestAdmission 2) (waiting .off waitingRead)).path.requests.get 5).map (·.covering) = some none
    ∧ ((after (.requestAdmission 2) (waiting .hold waitingRead)).path.requests.get 5).map (·.state) = some .waitMode
    ∧ (let d := { waiting .journal { waitingRead with write := true } with streams := (with1 live).streams }
       ((after (.requestAdmission 2) d).path.requests.get 5).map (·.state) = some .capturing) := by decide +kernel

theorem test_grant_journaled :
    let d := withRequest5 (heldWrite .waitOrder) { with1 live with path := { cold.path with
      locks := [⟨0x10000, .free, [.upstream 5 true]⟩] } }
    (lockOf d 0x10000).queue = [.upstream 5 true] ∧ (d.path.requests.get 5).bind (·.stream) = some 1
    ∧ ((after (.lineGrant 0x10000 none) d).path.requests.get 5).map (·.state) = some .capturing := by decide +kernel

theorem test_meets_places : Places cold 1 live ∧ Places cold 1 { live with state := .detaching }
    ∧ Places (rolling .holding .command live) 1 { live with state := .rollingBack }
    ∧ Places cold 1 { live with state := .opening, attach := some { gathering true with firstAnchored := true } } :=
  ⟨.inl rfl, .inr (.inl rfl), .inr (.inr (.inl ⟨rfl, rfl, rfl⟩)), .inr (.inr (.inr ⟨rfl, _, rfl, rfl⟩))⟩

theorem test_placement_stops :
    let d (x : Stream) : Device := withSlot6 (slot .waitingPosition) (rolling .holding .command { x with positions := [(6, 2)] })
    (after (.recordPlacement 1) (d { live with nextSequence := some 4294967295 })).capture.slots.get 6 = none
    ∧ (after (.recordPlacement 1) (d { live with current := some ⟨0x10000, chainEnd true, 16⟩ })).capture.slots.get 6 = none
    ∧ ((after (.recordPlacement 1) (filled { live with state := .detaching })).capture.slots.get 6).isSome = true := by
  decide +kernel

theorem test_initialMark : ((testMark 1 (with1 { committing 0 with state := .opening })).streams.get 1).anchorWaiting =
      some ⟨[.attachSecond], none⟩ ∧ (committing 0).marks.length = 0 := by decide +kernel

theorem test_canBeLost : CanBeLost live ∧ CanBeLost { live with state := .detaching } ∧ ¬ CanBeLost { live with state := .broken } :=
  ⟨.inl rfl, .inr (.inr (.inr rfl)), by rintro (h | h | h | h) <;> cases h⟩

theorem test_abandonedCapture :
    let d (c : Slot) : Device := { withSlot6 c cold with
      arbiter := { cold.arbiter with issued := [⟨3, aRead (.capture 6), false, true, 0⟩] }
      path := { cold.path with locks := [⟨0x80, .held, []⟩] } }
    (after (.abandonedTagAnswer 3 .done) (d (slot .cancelled))).capture.slots.get 6 = none
    ∧ (after (.abandonedTagAnswer 3 .done) (d (slot .cancelled))).path.locks = []
    ∧ (after (.abandonedTagAnswer 3 .done) (d (slot .reading))).path.locks ≠ []
    ∧ (after (.abandonedTagAnswer 3 .done) (d { slot .reading with owner := none })).path.locks = [] := by decide +kernel

/-- Stream 1 with a full history, its second entry at sequence 2. -/
def full : Stream :=
  { live with history := (List.range 16).map fun i => ⟨0x10000 + 64 * i, 0x20000, 16, i + 1, false⟩ }

theorem test_meets_fullHistory : full.history.length = 16 ∧ full.marks = [⟨1, 0xAA, 1⟩] ++ [⟨2, 0xBB, 3⟩]
    ∧ kinds (forcedRetirement 1 (with1 full)) = [.markRetired]
    ∧ ((forcedRetirement 1 (with1 full)).streams.get 1).history.length = 14
    ∧ forcedRetirement 1 (with1 { full with history := full.history.drop 1 }) = with1 { full with history := full.history.drop 1 } := by
  decide +kernel

/-! ## What a device check's handling holds back -/

/-- A part whose Check Unit is in DEVICE_HOLD. -/
def handling (d : Device) : Device := { d with check := { d.check with state := .hold } }

theorem test_heldBack_admission : (handling (waiting .pass waitingRead)).check.state ≠ .normal
    ∧ ((after (.requestAdmission 2) (handling (waiting .pass waitingRead))).path.requests.get 5).map (·.state) = some .waitMode
    ∧ ((after (.requestAdmission 2) (waiting .pass waitingRead)).path.requests.get 5).map (·.state) = some .ready
    ∧ ((after (.requestAdmission 2) (handling (waiting .off waitingRead))).path.requests.get 5).map (·.covering) = some none := by
  decide +kernel

theorem test_heldBack_lineGrant :
    let d (covering : Option RegionNo) := withRequest5 { waitingRead with state := .waitOrder, covering := covering }
      (locked .free [.upstream 5 false])
    let state (d : Device) := ((after (.lineGrant 0x80 none) d).path.requests.get 5).map (·.state)
    state (d (some 2)) = some .ready ∧ state (handling (d (some 2))) = some .waitOrder
    ∧ state (handling (d none)) = some .ready := by decide +kernel

theorem test_heldBack_slotQueue : (handling (queuedWrite 0)).capture.slots.get 6 = none
    ∧ (handling (queuedWrite 0)).capture.queue = [5] ∧ (after (.slotQueueService 6) (handling (queuedWrite 0))).capture.queue = [5]
    ∧ (freeSlot 6 (handling (queuedWrite 0))).capture.queue = [5]
    ∧ ((freeSlot 6 (queuedWrite 0)).capture.slots.get 6).bind (·.owner) = some 5 := by decide +kernel

theorem test_eligible_handling :
    let d := withRequest5 { waitingRead with state := .ready, covering := none } (handling cold)
    eligible d (aWrite (.anchorWrite 1 0)) = true ∧ eligible d (aWrite (.slotRecord 6 true)) = false ∧ eligible d (aRead (.forward 5)) = true
    ∧ eligible (withRequest5 { waitingRead with state := .ready } (handling cold)) (aRead (.forward 5)) = false
    ∧ eligible cold (aWrite (.slotRecord 6 true)) = true := by decide +kernel

theorem test_failedCheck_met :
    let d := locked .free [.own (aWrite .report)]
    (after (.lineGrant 0x80 (some .slots)) d).check.cause = some (.internalState, .slots)
    ∧ (lockOf (after (.lineGrant 0x80 (some .slots)) d) 0x80).hold = .held
    ∧ (lockOf (after (.lineGrant 0x80 none) d) 0x80).hold = .held
    ∧ (after (.headLineWriteAnswer ⟨3, some .engine⟩ .done) (owed (aWrite .headLine) cold)).arbiter.issued = []
    ∧ (after (.headLineWriteAnswer ⟨3, some .engine⟩ .done) (owed (aWrite .headLine) cold)).check.cause =
      some (.internalState, .engine) := by decide +kernel

theorem test_age_atRest : quiet (offered 8 []) = true ∧ quiet (offered 7 []) = true ∧ (finish (offered 8 [])).arbiter.age = 8
    ∧ (finish (offered 7 [])).arbiter.age = 0 := by decide +kernel

theorem test_return_toJournal :
    let d (admitted : Nat) := withRegion2 { region2 .hold with requested := .journal, admitted := admitted } (with1 live)
    live.state = .active ∧ (tryReturn 2 (d 0)).map (fun e => ((e.regions.get 2).effective, (e.regions.get 2).change)) =
      some (.journal, .none)
    ∧ (tryReturn 2 (d 1)).map (fun e => ((e.regions.get 2).effective, (e.regions.get 2).change)) = some (.hold, .internal)
    ∧ quiet (withRegion2 (region2 .journal) (with1 live)) = true := by decide +kernel

/-! ## Losses -/

/-- Stream 1 with operation, extension and a region in JOURNAL, and a write of tag 5 that waits in line. -/
def losing (o : OperationKind) : Device := withRegion2 (region2 .journal) (withRequest5 (heldWrite .waitOrder)
  (with1 { live with operation := some ⟨o, 9, 2, 0, 0, 1, 0⟩, extension := some ⟨10, 0x10040, .choosing⟩ }))

theorem test_loss :
    let t := loseStream 1 .stallLimit true 0 0 (losing .mark)
    kinds t = [.streamLost, .commandDone, .commandDone] ∧ t.report.queue.map (·.tag) = [0, 9, 10]
    ∧ (t.regions.get 2).degrading = true ∧ t.responses = [(5, .retry)] ∧ t.path.requests.get 5 = none
    ∧ (losing .mark).path.requests.get 5 = some (heldWrite .waitOrder) ∧ (heldWrite .waitOrder).stream = some 1
    ∧ slotOwnedBy (losing .mark) 5 = none ∧ (losing .mark).responses = []
    ∧ ((loseStream 1 .exhaustion false 7 8 (losing .rollback)).report.queue.map (·.sequence)) = [3, 7, 0]
    ∧ kinds (loseStream 1 .exhaustion false 0 0 (with1 live)) = [.streamLost] := by decide +kernel

/-- The lines that slot 6 counts as written, or none with the slot free. -/
def written (d : Device) : Option Nat := (d.capture.slots.get 6).map (·.linesWritten)

theorem test_lostSlot :
    let d (answered : Nat) := owed (aWrite (.slotRecord 6 true))
      (withSlot6 { slot .writing with owner := none, lost := true, linesAnswered := answered } (with1 { live with state := .broken }))
    written (after (.recordLineAnswer 3 .done) (d 0)) = some 1 ∧ written (after (.recordLineAnswer 3 .error) (d 0)) = some 0
    ∧ written (after (.recordLineAnswer 3 .done) (d 1)) = none ∧ written (after (.recordLineAnswer 3 .error) (d 1)) = none := by
  decide +kernel

theorem test_markLine_error :
    let d (x : Stream) := owed (aWrite (.markRecord 1 true))
      (with1 { x with pendingMark := some (pendingAt (some ⟨4, 0x20180, 0⟩)) })
    ((after (.recordLineAnswer 3 .error) (d live)).streams.get 1).lossCause = some .recordWrite
    ∧ ((after (.recordLineAnswer 3 .error) (d { live with state := .opening })).streams.get 1).state = .detached := by
  decide +kernel

theorem test_slotReleased :
    let d := filtered (.pending 6) (withRequest5 (heldWrite .capturing) (withSlot6 { slot .done with linked := true } (with1 live)))
    (releaseCommitted 1 4 d).capture.slots.get 6 = none
    ∧ ((releaseCommitted 1 4 d).path.requests.get 5).map (·.state) = some .ready
    ∧ (releaseCommitted 1 4 d).capture.filter = [⟨0x10000, 2, .captured⟩]
    ∧ written (releaseCommitted 1 3 d) = some 0
    ∧ (releaseSlot d (6, { slot .done with owner := none })).capture.slots.get 6 = none := by decide +kernel

theorem test_exhausted_extended :
    let d := owed (aRead (.descriptor 1))
      (with1 { extending (.fetching 0x10000) exhausted with next := .fetching 0x10040 })
    ((after (.descriptorFetchAnswer 3 (.data goodLine)) d).streams.get 1).state = .active
    ∧ kinds (after (.descriptorFetchAnswer 3 (.data goodLine)) d) = [.commandDone]
    ∧ ((after (.descriptorUpdateReadAnswer 3 .error)
      (owed ⟨.updateRead 1, 0x10000, false, 0, 0⟩ (with1 (extending (.updating true 0x10000) live)))).streams.get 1).lossCause =
      some .descriptorUpdate := by decide +kernel

/-! ## ATTACH -/

/-- Stream 1 in OPENING, its ATTACH FRESH as given. -/
def opening (a : Attach) : Stream :=
  { Stream.cold with state := .opening, attach := some a, operation := some ⟨.attach, 9, 1, 0, 0, 0, 0⟩ }

/-- An ATTACH FRESH with all lines of both copies in, all zero. -/
def gathered : Attach := { gathering true with copyA := Table.fill 16 (some 0) }

theorem test_firstDescriptor :
    let d (a : Attach) := owed (aRead (.firstDescriptor 1)) (with1 (opening a))
    let x (d : Device) := d.streams.get 1
    ((x (after (.descriptorFetchAnswer 3 (.data goodLine)) (d (gathering true)))).attach.bind (·.first)).isSome = true
    ∧ (x (after (.descriptorFetchAnswer 3 (.data goodLine)) (d (gathering true)))).current = none
    ∧ (x (after (.descriptorFetchAnswer 3 (.data 0)) (d gathered))).state = .detached
    ∧ (x (after (.descriptorFetchAnswer 3 .error) (d gathered))).state = .detached
    ∧ bothCopies (gathering true) = none ∧ bothCopies gathered = some (0, 0) ∧ newestValid 0 0 = none
    ∧ (parseDescriptor goodLine 0).valid 0 = true := by decide +kernel

theorem test_fresh_offers :
    let jobs (first : BitVec 64) := (after (.attachFresh (head 1) 0 0 0 0x800 first) cold).arbiter.waiting.map (·.job)
    (jobs 0x20).head? = some (.firstDescriptor 1) ∧ (jobs 0x1000).getLast? = some (.firstDescriptor 1)
    ∧ (jobs 0x840).take 3 = [.anchorRead 1 .a 0, .anchorRead 1 .a 1, .firstDescriptor 1] ∧ (jobs 0x840).length = 33 := by
  decide +kernel

/-- A copy without its check code: magic, stamp 5, generation 7, flags, one history entry from sequence 1, next sequence 4. -/
def bareCopy (flags marks : Nat) : BitVec 8192 := layout 8192
  [(0x000, 4, anchorMagic), (0x008, 4, 5), (0x00C, 4, 7), (0x010, 1, flags), (0x014, 1, marks), (0x015, 1, 1), (0x018, 4, 2),
   (0x01C, 4, 2), (0x020, 4, 4), (0x040, 4, 1), (0x048, 4, 1), (0x050, 4, 2), (0x058, 4, 3), (0x0C0, 8, 0x10000),
   (0x0C8, 8, 0x20000), (0x0D0, 4, 16), (0x0D4, 4, 1)]

/-- The copy with its check code. -/
def sealedCopy (flags marks : Nat) : BitVec 8192 :=
  bareCopy flags marks ||| layout 8192 [(0x004, 4, anchorCheckCode (bareCopy flags marks))]

theorem sealedCopy_bytes (flags marks o s : Nat) (h : 8 ≤ o) : bytesAt (sealedCopy flags marks) o s = bytesAt (bareCopy flags marks) o s :=
  bytesAt_or_layout _ _ _ _ _ _ (.inr h)

theorem sealedCopy_contents (flags marks : Nat) : copyContents (sealedCopy flags marks) = copyContents (bareCopy flags marks)
    ∧ copyContentsPass (sealedCopy flags marks) = copyContentsPass (bareCopy flags marks) := by
  have e : copyContents (sealedCopy flags marks) = copyContents (bareCopy flags marks) := by
    simp only [copyContents, sealedCopy_bytes, Nat.le_add_right_of_le, Nat.reduceLeDiff]
  refine ⟨e, ?_⟩
  simp only [copyContentsPass, e, sealedCopy_bytes, Nat.reduceLeDiff]

/-- The lines of a copy but for the first. -/
def linesOf (k : BitVec 8192) : Table (Option Line) 16 :=
  ⟨none :: (indices 16).tail.map fun i => some (anchorLine k i), rfl⟩

theorem linesOf_joined (k : BitVec 8192) : joinLines ((linesOf k).set 0 (some (anchorLine k 0))) = some k :=
  joinLines_anchorLine k _ rfl

theorem test_meets_copies (flags marks : Nat) (hm : marks = 2) (hf : flags = 0 ∨ flags = 2 ∨ flags = 4) :
    newestValid (sealedCopy flags marks) 0 = some (.a, sealedCopy flags marks) := by
  subst hm
  have v : copyValid (sealedCopy flags 2) = true := copyValid_or _
    (by rcases hf with rfl | rfl | rfl <;> decide +kernel) (by rcases hf with rfl | rfl | rfl <;> decide +kernel)
  have z : copyValid (0 : BitVec 8192) = false := by decide +kernel
  rw [newestValid, v, z]
  rfl

theorem test_copyContents : (copyContents (bareCopy 2 2)).invalidated = true ∧ copyContentsPass (bareCopy 4 2) = true
    ∧ (copyContents (bareCopy 4 2)).rollbackPending = true ∧ (copyContents (bareCopy 4 2)).invalidated = false
    ∧ copyContentsPass (bareCopy 0 2) = true ∧ copyContentsPass (bareCopy 0 9) = false
    ∧ (copyContents (bareCopy 0 2)).history.getLast? = some ⟨0x10000, 0x20000, 16, 1, false⟩ := by decide +kernel

/-- An ATTACH whose last line of copy A is still to come, copy B all zero. -/
def lastLine (fresh : Bool) (k : BitVec 8192) : Attach := { gathering fresh with copyA := linesOf k }

theorem test_meets_resumed (k : BitVec 8192) :
    let a' : Attach := { lastLine false k with copyA := (lastLine false k).copyA.set 0 (some (anchorLine k 0)) }
    Outstanding (readingAnchor (lastLine false k)) 3 (aRead (.anchorRead 1 .a 0)) ∧ bothCopies a' = some (k, 0)
    ∧ (lastLine false k).fresh = false ∧ ((readingAnchor (lastLine false k)).streams.get 1).state = .resuming := by
  refine ⟨owed_outstanding _ _, ?_, rfl, rfl⟩
  have b : joinLines (Table.fill 16 (some (0 : Line))) = some 0 := by decide +kernel
  exact (congrArg₂ (fun x y => match x, y with
    | some x, some y => some (x, y)
    | _, _ => none) (linesOf_joined k) b : _)

theorem test_freshened :
    let d (first : Option Descriptor) := readingAnchor { gathering true with first := first }
    ((after (.anchorReadAnswer 3 (.data 0)) (d none)).streams.get 1).anchorWaiting = none
    ∧ (((after (.anchorReadAnswer 3 (.data 0)) (d (some (chainEnd true)))).streams.get 1).anchorOutstanding.map (·.occasions)) =
      some [.attachFirst]
    ∧ ((after (.anchorReadAnswer 3 (.data 0)) (d (some (chainEnd true)))).streams.get 1).stamp = 1 := by decide +kernel

/-- The header of a record of stream 1 without its check code: kind, stamp, sequence, epoch. -/
def bareHeader (kind stamp sequence epoch : Nat) : Line :=
  layout 512 [(0x00, 1, kind), (0x04, 4, stamp), (0x08, 4, sequence), (0x0C, 4, epoch)]

/-- The header with its check code over image 7. -/
def header (kind stamp sequence epoch : Nat) : Line :=
  bareHeader kind stamp sequence epoch ||| layout 512 [(0x1C, 4, recordCheckCode (bareHeader kind stamp sequence epoch) 7)]

theorem header_bytes (kind stamp sequence epoch o s : Nat) (h : o + s ≤ 0x1C) :
    bytesAt (header kind stamp sequence epoch) o s = bytesAt (bareHeader kind stamp sequence epoch) o s :=
  bytesAt_or_layout _ _ _ _ _ _ (.inl h)

theorem header_checks (kind stamp sequence epoch : Nat) (h : bytesAt (bareHeader kind stamp sequence epoch) 0x1C 4 = 0) :
    recordChecks (header kind stamp sequence epoch) 7 = true := recordChecks_or _ _ h

theorem test_meets_scanAccepts : scanAccepts live 4 (header 1 5 4 9) 7 = true ∧ scanAccepts live 4 (header 2 5 4 3) 7 = true
    ∧ scanAccepts live 5 (header 1 5 4 9) 7 = false ∧ headerKind (header 2 5 4 3) = 2 ∧ headerKind (header 1 5 4 9) ≠ 2 := by
  have h1 := header_checks 1 5 4 9 (by decide +kernel)
  have h2 := header_checks 2 5 4 3 (by decide +kernel)
  simp only [scanAccepts, h1, h2, headerKind, headerStamp, headerSequence, headerEpoch, header_bytes, Nat.reduceAdd,
    Nat.reduceLeDiff]
  decide +kernel

theorem test_meets_recordFault : recordFault (header 1 5 4 9) 7 4 3 2 = none ∧ recordFault (header 2 5 3 2) 7 3 3 2 = none
    ∧ recordFault (header 1 5 3 2) 7 3 3 2 = some .recordContent ∧ recordFault (header 1 5 5 9) 7 4 3 2 = some .recordSequence
    ∧ recordFault (header 2 5 4 2) 7 4 3 2 = some .recordContent ∧ recordFault (header 2 5 4 3) 7 4 3 2 = none := by
  have h1 := header_checks 1 5 4 9 (by decide +kernel)
  have h2 := header_checks 2 5 3 2 (by decide +kernel)
  have h3 := header_checks 1 5 3 2 (by decide +kernel)
  have h4 := header_checks 1 5 5 9 (by decide +kernel)
  have h5 := header_checks 2 5 4 2 (by decide +kernel)
  have h6 := header_checks 2 5 4 3 (by decide +kernel)
  simp only [recordFault, h1, h2, h3, h4, h5, h6, headerKind, headerSequence, headerEpoch, header_bytes, Nat.reduceAdd,
    Nat.reduceLeDiff]
  decide +kernel

/-- Stream 1 RESUMING, its scan in this state. -/
def scanned (target : Option Nat) (c : Scan) : Device := with1 { live with
  state := .resuming, operation := some ⟨.attach, 9, 0, 0, 0, 0, 0⟩, nextSequence := some 4
  attach := some { scanning with target := target, scan := some c } }

/-- The unread sequences of stream 1's scan. -/
def ahead (d : Device) : Option Nat := (scanOf (d.streams.get 1)).map (·.nextUnread)

theorem test_scanWindow :
    let w : WindowRecord := ⟨4, 0x20180, none, none⟩
    ahead (refillScan 8 1 (scanned none ⟨4, 4, [], 0, 0⟩)) = some 12
    ∧ ahead (refillScan 8 1 (scanned none ⟨4, 16, [], 0, 0⟩)) = some 17
    ∧ ahead (refillScan 8 1 (scanned none ⟨4, 4, List.replicate 8 w, 0, 0⟩)) = some 4
    ∧ ahead (refillScan 8 1 (handling (scanned none ⟨4, 4, [], 0, 0⟩))) = some 4
    ∧ ahead (judgeScan 1 1 (scanned none ⟨4, 5, [w], 0, 0⟩)) = some 5
    ∧ ((judgeScan 1 1 (scanned none ⟨17, 17, [], 0, 0⟩)).streams.get 1).committed = some 16
    ∧ ((acceptRecord 1 (header 2 5 4 3) 4 (scanned none ⟨4, 5, [w], 0, 0⟩)).streams.get 1).marks.length ≤ 3 := by
  refine ⟨?_, ?_, ?_, ?_, ?_, ?_, ?_⟩
  case refine_7 =>
    have e : headerKind (header 2 5 4 3) = 2 := test_meets_scanAccepts.2.2.2.1
    simp only [acceptRecord, acceptMark, e]
    decide +kernel
  all_goals decide +kernel

theorem test_endScan :
    let c : Scan := ⟨4, 5, [], 3, 1⟩
    let zero (d : Device) := d.withStream 1 fun x => { x with epoch := some 0 }
    lastStatus (endScan 1 4 (zero (scanned none c))) = some .anchorInvalid
    ∧ ((endScan 1 4 (scanned none c)).streams.get 1).anchorWaiting = some ⟨[.resume], none⟩
    ∧ ((endScan 1 4 (scanned none c)).streams.get 1).stamp = 6
    ∧ (endScan 1 4 (scanned (some 2) c)).engine.owner = some 1
    ∧ (endScan 1 4 { scanned (some 2) c with engine := { Engine.cold with phase := .holding } }).engine.claims = [1] := by
  decide +kernel

/-! ## The walk -/

/-- A part whose walk has this window, and room or none for restore writes. -/
def windowed (w : List WindowRecord) (restores : Nat) : Device :=
  let d := rolling .restoring .command live
  { d with engine := { d.engine with window := w, restores := restores, readPointer := some 5, applyPointer := some 5 } }

theorem test_walkWindow :
    let w (n : Nat) (l : Option Line) : WindowRecord := ⟨n, 0x20180, l, l⟩
    (refillWindow 8 1 (windowed [] 0)).engine.window.map (·.sequence) = [5, 4, 3]
    ∧ (refillWindow 8 1 (windowed (List.replicate 8 (w 9 none)) 0)).engine.window.length = 8
    ∧ (refillWindow 8 1 (handling (windowed [] 0))).engine.window = []
    ∧ (processWindow 9 1 (windowed [w 5 none] 0)).engine.window.length = 1
    ∧ (processRecord 1 0 5 3 (windowed [w 5 none] 8)).isNone = true
    ∧ (processRecord 1 0 5 3 (windowed [w 5 none] 7)).map (·.engine.restores) = some 8 := by decide +kernel

theorem test_meets_walkFault :
    let d := windowed [⟨4, 0x20180, some (header 1 5 5 9), some 7⟩] 0
    d.engine.targetSequence = some 3 ∧ d.engine.targetEpoch = some 2 ∧ d.check.state = .normal
    ∧ (d.streams.get 1).state = .rollingBack ∧ recordFault (header 1 5 5 9) 7 4 3 2 = some .recordSequence :=
  ⟨rfl, rfl, rfl, rfl, test_meets_recordFault.2.2.2.1⟩

theorem test_cancelled_order :
    let d := { rolling .holding .command live with capture := { cold.capture with
      slots := (cold.capture.slots.set 6 (some { slot .waitingPosition with owner := none })).set 7 (some (slot .writing)) } }
    (cancelWaitingSlots 1 d).capture.slots.get 6 = none ∧ ((cancelWaitingSlots 1 d).capture.slots.get 7).isSome = true := by
  decide +kernel

/-! ## Anchor writes and what their owners do -/

/-- Streams 0 and 1 each with an anchor write waiting, at these anchor addresses. -/
def twoAnchors (a b : Nat) : Device := { cold with streams :=
  (cold.streams.set 0 { anchorOffer [.release] 4 with anchorAddress := a }).set 1 { anchorOffer [.release] 4 with anchorAddress := b } }

/-- Which of streams 0 and 1 the next inner step issues an anchor write of. -/
def issuedNext (d : Device) : Option (Bool × Bool) := (innerStep d).map fun e =>
  ((e.streams.get 0).anchorOutstanding.isSome, (e.streams.get 1).anchorOutstanding.isSome)

theorem test_anchorOrder : issuedNext (twoAnchors 0x2000 0x800) = some (false, true)
    ∧ issuedNext (twoAnchors 0x800 0x2000) = some (true, false) ∧ issuedNext (twoAnchors 0x800 0x800) = some (true, false)
    ∧ (let d := twoAnchors 0x2000 0x800
       (pathStep d).isNone = true ∧ (∀ k, (trySlotQueueService k d).isNone = true) ∧ (∀ st, (tryRecordPlacement st d).isNone = true)
       ∧ (∀ st, (tryExtendTargetChoice st d).isNone = true) ∧ (tryEngineClaimHandoff d).isNone = true
       ∧ (tryResumedHoldingEnd d).isNone = true ∧ (tryHoldingEnd d).isNone = true
       ∧ (∀ st, (tryDetachFinalAnchor st d).isNone = true) ∧ (tryAnchorWriteIssue 0 d).isSome = true) := by decide +kernel

theorem test_anchorFails :
    let failed (o : List Occasion) (s : StreamState) : Device :=
      let d := anchored 3 o
      after (.anchorWriteLineAnswer 3 .error) { d with
        streams := d.streams.set 1 { d.streams.get 1 with state := s }
        arbiter := { d.arbiter with waiting := [aWrite (.anchorWrite 1 5)] } }
    (failed [.loss 2] .broken).check.cause = some (.invalidationWrite, .none)
    ∧ (failed [.loss 2] .broken).arbiter.waiting.head?.map (·.job) = some (.discard .c1)
    ∧ (failed [.check] .active).check.results.get 1 = .notInvalidated
    ∧ ((failed [] .active).streams.get 1).state = .active
    ∧ ((failed [.attachFirst] .opening).streams.get 1).state = .detached
    ∧ (failed [.attachFirst] .opening).arbiter.waiting = [] := by decide +kernel

/-- Stream 1 with a freed segment acknowledged up to this sequence, and another still waiting. -/
def freedUpTo (last : Nat) : Device :=
  with1 { live with freed := [⟨0x10000, 0x20000, last, .acknowledged⟩, ⟨0x10040, 0x30000, 2, .waiting⟩] }

theorem test_freedList : kinds (testFreed 1 (freedUpTo 3)) = [.segmentFreed] ∧ kinds (testFreed 1 (freedUpTo 4)) = []
    ∧ ((testFreed 1 (freedUpTo 3)).streams.get 1).freed = [⟨0x10040, 0x30000, 2, .waiting⟩] := by decide +kernel

theorem test_checkAfterAnchor :
    let awaiting (g : InvalidateStage) : Device :=
      { invalidating live with check := { (invalidating live).check with stages := (Table.fill 4 .none).set 1 g } }
    (checkAfterAnchor 1 (awaiting .awaiting)).check.stages.get 1 = .offered
    ∧ (checkAfterAnchor 1 (awaiting .awaiting)).check.state = .invalidate
    ∧ (checkAfterAnchor 1 (awaiting .none)).check.state = .close ∧ (checkAfterAnchor 1 (with1 live)).check.state = .normal := by
  decide +kernel

/-- Stream 1 with an ATTACH in its operation slot. -/
def attaching (s : StreamState) (a : Attach) : Device :=
  with1 { live with state := s, operation := some ⟨.attach, 9, 1, 0, 0, 0, 0⟩, attach := some a }

theorem test_owners_told :
    lastStatus (tellOwner 1 (attaching .opening gathered) .attachSecond) = some .ok
    ∧ ((tellOwner 1 (attaching .opening gathered) .attachSecond).streams.get 1).state = .active
    ∧ (tellOwner 1 (attaching .resuming scanning) .resume).report.queue.map (·.sequence) = [3]
    ∧ ((tellOwner 1 (rolling .finalAnchor .command live) .final).streams.get 1).state = .active
    ∧ (tellOwner 1 (rolling .finalAnchor .command live) .final).report.queue.map (·.sequence) = [3]
    ∧ (tellOwner 1 (rolling .finalAnchor .resume live) .final).report.queue.map (·.region) = [16]
    ∧ (tellOwner 1 (handling (rolling .finalAnchor .command live)) .final).engine.phase = .finalAnchor
    ∧ ((tellOwner 1 (with1 { live with state := .detaching, operation := some ⟨.detach, 9, 0, 0, 0, 0, 0⟩ }) .detach).streams.get 1).state =
      .detached := by decide +kernel

theorem test_entered_fetched :
    let next (last : Bool) (l : Option Nat) :=
      ((fetchFollowing 1 (with1 { live with current := some ⟨0x10000, chainEnd last, 3⟩, extensionLink := l })).streams.get 1).next
    next false none = .fetching 0x10040 ∧ next true (some 0x10080) = .fetching 0x10080 ∧ next true none = .absent
    ∧ kinds (reportEntered 1 2 (with1 { live with history := [⟨0x10000, 0x20000, 16, 1, true⟩] })) = [.segmentEntered]
    ∧ kinds (reportEntered 1 2 (with1 live)) = [] := by decide +kernel

theorem test_degradationEnds :
    let d (c : Change) (m : Mode) := withRegion2 { changing .hold m c with degrading := true } (with1 live)
    kinds (endDegradations 1 2 (d (.tagged 9) .pass)) = [.regionDegraded, .modeReached]
    ∧ (endDegradations 1 2 (d (.tagged 9) .pass)).report.queue.map (·.second) = [0, 1]
    ∧ kinds (endDegradations 1 2 (d .internal .pass)) = [.regionDegraded]
    ∧ ((endDegradations 1 2 (d .internal .pass)).regions.get 2).change = .none
    ∧ kinds (endDegradations 1 2 (d (.tagged 9) .seal)) = [.regionDegraded, .modeReached]
    ∧ ((endDegradations 1 2 (d .none .seal)).regions.get 2).effective = .pass := by decide +kernel

theorem test_resumeRegion :
    let d (c : Change) (m : Mode) := withRegion2 { changing .hold .hold c with resume := some m } (with1 live)
    ((resumeRegion (d .none .hold) 2).regions.get 2).change = .none
    ∧ ((resumeRegion (d .none .journal) 2).regions.get 2).effective = .journal
    ∧ kinds (resumeRegion (d (.tagged 9) .hold) 2) = [.modeSuperseded]
    ∧ ((resumeRegions 1 (d .none .seal)).regions.get 2).requested = .seal := by decide +kernel

theorem test_readsOffered :
    let d (o : Bool) := with1 (opening { gathering true with readsOffered := o })
    (offerAnchorReads 1 (d false)).arbiter.waiting.length = 32 ∧ (offerAnchorReads 1 (d true)).arbiter.waiting = []
    ∧ (offerAnchorReads 1 (with1 live)).arbiter.waiting = [] := by decide +kernel

theorem test_clear_admitted :
    let d (st : RequestState) := withRegion2 { region2 .journal with admitted := 3 } (withRequest5 (heldWrite st) cold)
    ((deviceClear (d .waitOrder)).regions.get 2).admitted = 2 ∧ ((deviceClear (d .waitMode)).regions.get 2).admitted = 3
    ∧ ((deviceClear (d .forwarded)).regions.get 2).admitted = 3 := by decide +kernel

/-! ## Second review: grants, slots, losses, ends -/

theorem test_grant_sends :
    let d := withRequest5 { waitingRead with state := .ready, covering := none } (offered 0 [aRead (.forward 5)])
    (after (.arbiterGrant 4) d).sent.map (·.tag) = [4] ∧ tagsHeld (after (.arbiterGrant 4) d) = [(4, true)]
    ∧ (after (.arbiterGrant 4) (offered 0 [])).sent = [] := by decide +kernel

theorem test_cancelSlot :
    let phase (d : Device) := ((cancelSlot 6 d).capture.slots.get 6).map (·.phase)
    let issued := owed (aRead (.capture 6)) (capturing .reading)
    phase cold = none ∧ phase (capturing .waitingPosition) = none ∧ phase (capturing .reading) = none
    ∧ phase issued = some .cancelled ∧ (cancelSlot 6 issued).responses = [(5, .retry)]
    ∧ phase (capturing .writing) = some .writing ∧ (cancelSlot 6 (capturing .done)).responses = [] := by decide +kernel

theorem test_loseCaptures :
    let lose (d : Device) := loseStream 1 .recordWrite false 0 0 (withRegion2 (region2 .journal) (filtered .captured d))
    let phase (d : Device) := ((lose d).capture.slots.get 6).map fun c => (c.phase, c.owner, c.lost)
    let issued := owed (aRead (.capture 6)) (capturing .reading)
    (∀ g ∈ (filtered .captured (capturing .done)).capture.queue, g = 0) ∧ (slot .done).stream = 1 ∧ (slot .done).lost = false
    ∧ phase (capturing .done) = none ∧ phase (capturing .waitingPosition) = none ∧ phase (capturing .reading) = none
    ∧ phase issued = some (.cancelled, none, false) ∧ phase (capturing .writing) = some (.writing, none, true)
    ∧ (lose cold).capture.filter = []
    ∧ ((lose (withSlot6 { slot .done with owner := none } (with1 live))).capture.slots.get 6).isNone = true := by decide +kernel

theorem test_detach_overtakes :
    let x := { live with state := .detaching, operation := some ⟨.detach, 9, 0, 0, 0, 0, 0⟩ }
    let t (stage : ExtendStage) := tellOwner 1 (with1 { x with extension := some ⟨10, 0x10040, stage⟩ }) .detach
    (t .choosing).report.queue.map (fun r => (r.kind, r.tag, r.status)) = [(.commandDone, 9, .ok), (.commandDone, 10, .failed)]
    ∧ ((t (.updating true 0x10000)).report.queue.map (fun r => (r.address, r.second))) = [(0, 3), (0x10040, 0)]
    ∧ ((t .choosing).streams.get 1).extension = none := by decide +kernel

theorem test_earlierWrite_kept :
    let failed (o : List Occasion) (s : StreamState) : List Job :=
      let d := anchored 3 o
      (after (.anchorWriteLineAnswer 3 .error) { d with
        streams := d.streams.set 1 { d.streams.get 1 with state := s }
        arbiter := { d.arbiter with waiting := [aWrite (.anchorWrite 1 5)] } }).arbiter.waiting.map (·.job)
    failed [] .opening = [.discard .c1] ∧ failed [] .resuming = [.discard .c1] ∧ failed [.attachFirst] .opening = [] := by
  decide +kernel

theorem test_anchorRead_handling :
    let ended (a : MemAnswer) (x : Attach) := ((after (.anchorReadAnswer 3 a) (handling (readingAnchor x))).streams.get 1).state
    (handling (readingAnchor (gathering false))).check.state ≠ .normal
    ∧ ended (.data 0) (gathering false) = .detached ∧ ended .error (gathering false) = .resuming
    ∧ ((endAttach 1 .failed 9 0 0x800 (attaching .opening gathered)).streams.get 1).state = .detached
    ∧ ((attaching .opening gathered).streams.get 1).operation.isSome = true := by decide +kernel

theorem test_scan_handling :
    let t := after (.resumeDescriptorAnswer 3 (.data goodLine)) (handling (resuming (.resumeDescriptor 1) 17))
    (t.streams.get 1).stamp = 6 ∧ (t.streams.get 1).state = .resuming
    ∧ (t.streams.get 1).anchorWaiting.map (·.occasions) = some [.resume] := by decide +kernel

theorem test_stale_attach :
    let stage (a : Attach) := (startInvalidation (invalidating { live with state := .opening, attach := some a }) 1).check.stages.get 1
    stage { gathered with judged := true } = .offered ∧ stage gathered = .none := by decide +kernel

theorem test_truncate_offers :
    let cut (first : Nat) := truncate 1 3 2 (rolling .restoring .command
      { live with history := [⟨0x10000, 0x20000, 16, 1, false⟩, ⟨0x10040, 0x30000, 16, first, false⟩] })
    ((cut 3).streams.get 1).anchorWaiting = some ⟨[.final], none⟩ ∧ ((cut 3).streams.get 1).operation.map (·.retired) = some 0
    ∧ (cut 4).arbiter.waiting.map (·.job) = [.truncationDescriptor 1] ∧ (lockOf (cut 4) 0x10000).hold = .shared 1
    ∧ ((truncate 1 1 1 (rolling .restoring .command live)).streams.get 1).operation.map (·.retired) = some 1 := by
  decide +kernel

theorem test_abandonInvalidation :
    let d (g : InvalidateStage) := { invalidating live with check := { (invalidating live).check with
      stages := (Table.fill 4 .none).set 1 g, results := Table.fill 4 .invalidated } }
    let result (d : Device) := (abandonInvalidation d 1).check.results.get 1
    result (d .none) = .invalidated ∧ result (d .awaiting) = .notAttempted ∧ result (d .offered) = .notAttempted
    ∧ result (owed (aWrite (.anchorWrite 1 0)) (d .offered)) = .notInvalidated := by decide +kernel

theorem test_enterInvalidate : (enterInvalidate (invalidating live)).check.state = .invalidate
    ∧ (enterInvalidate (invalidating live)).check.stages.get 1 = .offered ∧ (enterInvalidate (checking .record)).check.state = .close := by
  decide +kernel

theorem test_beginHandling_reads :
    let d := owed (aRead (.scanRead 1 4 false)) (offered 0 [aRead .commandFetch, aRead (.capture 6)])
    (deviceCheck .command .none d).arbiter.issued.map (·.request.job) = [.discard .c4]
    ∧ (deviceCheck .command .none d).arbiter.waiting.map (·.job) = [.commandFetch] := by decide +kernel

theorem test_clear_locks :
    let d := owed (aRead .commandFetch) (locked .held [.own (aWrite .report), .upstream 5 false])
    (deviceClear d).arbiter.issued.map (·.request.job) = [.discard (Job.portClass .commandFetch)]
    ∧ (∀ l ∈ (deviceClear d).path.locks, ∀ a ∈ l.queue, a ≠ .own (aWrite .report)) := by decide +kernel

theorem test_pendingChange_settled :
    let d := withRegion2 (changing .pass .seal (.tagged 9)) cold
    quiet (settle Config.innerSteps d) = true ∧ ((finish d).regions.get 2).change = .none := by decide +kernel

theorem test_freeingLimit : freeingLimit live = some 1 ∧ freeingLimit { live with marks := [] } = none
    ∧ freeingLimit { live with pendingMark := some (pendingAt (some ⟨0, 0x20180, 0⟩)) } = some 0 := by decide +kernel

theorem test_updatedLine :
    let u := updatedDescriptorLine goodLine 0x10000 0x10080
    (parseDescriptor u 0x10000).link = 0x10080 ∧ (parseDescriptor u 0x10000).last = false
    ∧ (parseDescriptor u 0x10000).base = (parseDescriptor goodLine 0x10000).base
    ∧ parseDescriptor u 0x10020 = parseDescriptor goodLine 0x10020 := by decide +kernel

theorem test_check_write_kept :
    let x := { live with state := .resuming, epoch := some 0, nextSequence := some 17, attach := some scanning
                         operation := some ⟨.attach, 9, 0, 0, 0, 0, 0⟩, anchorOutstanding := some ⟨[.check], .b, 0xC00, 8, 15⟩ }
    let d : Device := { invalidating x with
      check := { (invalidating x).check with stages := (Table.fill 4 .none).set 1 .offered } }
    let t := endAttach 1 .anchorInvalid 0 0 0x800 d
    (t.streams.get 1).state = .detached ∧ (t.streams.get 1).anchorOutstanding.isSome = true
    ∧ (after (.anchorWriteLineAnswer 3 .done) (owed (aWrite (.anchorWrite 1 0)) t)).check.results.get 1 = .invalidated
    ∧ (after (.anchorWriteLineAnswer 3 .done) (owed (aWrite (.anchorWrite 1 0)) t)).check.state = .close
    ∧ ((after (.resumeDescriptorAnswer 3 (.data goodLine)) (owed (aRead (.resumeDescriptor 1)) d)).streams.get 1).state = .detached
    ∧ ((after (.resumeDescriptorAnswer 3 (.data goodLine)) (owed (aRead (.resumeDescriptor 1)) d)).streams.get 1).anchorOutstanding =
      x.anchorOutstanding := by decide +kernel

/-! ## Fourth review: layouts, line requests, losses, failures during a handling -/

theorem test_shared_offer :
    let d := locked (.shared 2) []
    (offer (aRead .commandFetch) d).path.locks = [⟨0x80, .shared 3, []⟩]
    ∧ (offer (aRead .commandFetch) d).arbiter.waiting = [aRead .commandFetch]
    ∧ (offer (aWrite .report) d).path.locks = [⟨0x80, .shared 2, [.own (aWrite .report)]⟩]
    ∧ (offer (aRead (.updateRead 1)) d).path.locks = [⟨0x80, .shared 2, [.own (aRead (.updateRead 1))]⟩]
    ∧ (offer (aWrite .report) d).arbiter.waiting = [] := by decide +kernel

theorem test_headLine_outstanding :
    let d : Device := { cold with command := { cold.command with headOutstanding := true } }
    (offerHeadLine d).command.headWaiting = true ∧ (offerHeadLine d).command.headAsked = false
    ∧ (offerHeadLine d).arbiter.waiting = [] := by decide +kernel

theorem test_faultFirst_bytes : faultFirstLine 2 ((Table.fill 4 (false, 0)).set 1 (true, 0x800)) =
    BitVec.ofNat 512 (packed [2, 0, 0, 0, 0, 0, 0, 0, 0, 1, 0, 0, 0, 0, 0, 0, 0, 0, 0, 0, 0, 0, 0, 0, 0, 8]) := by decide +kernel

theorem test_covering_modes :
    let d (m n : Mode) := withRegion2 { region2 m with requested := n } cold
    covering (d .off .off) 0x10000 = none ∧ covering (d .pass .off) 0x10000 = some 2 ∧ covering (d .off .pass) 0x10000 = some 2
    ∧ covering (d .pass .pass) 0xFFC0 = none := by decide +kernel

/-- A part that loses stream 1 with these requests at the memory port: waiting, queued on a held line, issued. -/
def losingWith (r : PortRequest) : Device :=
  { rolling .restoring .command { live with anchorOutstanding := some ⟨[.release, .check], .b, 0xC00, 8, 3⟩ } with
    arbiter := { cold.arbiter with waiting := [r], issued := [⟨3, r, false, false, 0⟩] }
    path := { cold.path with locks := [⟨0x80, .held, [.own r]⟩] } }

/-- The jobs waiting, issued and queued after stream 1 is lost. -/
def jobsLeft (r : PortRequest) : List Job × List Job × List Asker :=
  let t := loseStream 1 .recordWrite false 0 0 (losingWith r)
  (t.arbiter.waiting.map (·.job), t.arbiter.issued.map (·.request.job), t.path.locks.flatMap (·.queue))

theorem test_loss_requests :
    jobsLeft (aRead (.descriptor 1)) = ([], [.discard .c1], [])
    ∧ jobsLeft (aWrite (.updateWrite 1)) = ([], [.discard .c1], [])
    ∧ jobsLeft (aRead (.journalRead 4 true)) = ([], [.discard .c4], [])
    ∧ jobsLeft (aWrite (.restore 4)) = ([], [.discard .c4], [])
    ∧ jobsLeft (aRead (.truncationDescriptor 1)) = ([], [.discard .c1], [])
    ∧ jobsLeft (aWrite (.markRecord 1 true)) =
      ([.discard .c2], [.discard .c2], [.own (aWrite (.discard .c2))])
    ∧ jobsLeft (aRead (.descriptor 0)) = ([.descriptor 0], [.descriptor 0], [.own (aRead (.descriptor 0))])
    ∧ jobsLeft (aWrite (.anchorWrite 1 0)) =
      ([.anchorWrite 1 0], [.anchorWrite 1 0], [.own (aWrite (.anchorWrite 1 0))]) := by decide +kernel

theorem test_loss_engine :
    let t (owner : Option StreamNo) := let d := losingWith (aRead .commandFetch)
      loseStream 1 .recordWrite false 0 0 { d with engine := { d.engine with owner := owner, claims := [3] } }
    (t (some 1)).engine = { Engine.cold with claims := [3] } ∧ (t (some 0)).engine.phase = .restoring
    ∧ ((t (some 1)).streams.get 1).anchorOutstanding = some ⟨[.check], .b, 0xC00, 8, 3⟩ := by decide +kernel

theorem test_ownerless_answer :
    let d : Device := { owed (aWrite (.discard .c2)) cold with path := { cold.path with locks := [⟨0x80, .held, []⟩] } }
    Outstanding d 3 (aWrite (.discard .c2)) ∧ (after (.recordLineAnswer 3 .error) d).arbiter.issued = []
    ∧ (after (.recordLineAnswer 3 .error) d).path.locks = [] ∧ after (.forwardedRequestAnswer 3 .done) d = after (.recordLineAnswer 3 .error) d
    ∧ kinds (after (.recordLineAnswer 3 .error) d) = [] := by
  refine ⟨⟨_, rfl, rfl, rfl⟩, ?_⟩
  decide +kernel

/-- A command in DEVICE_HOLD takes the outstanding request in, and neither reports nor changes the state of stream 1. -/
def kept (c : Instr) (d : Device) : Bool :=
  let t := after c (handling d)
  t.report.queue == d.report.queue && (t.streams.get 1).state == (d.streams.get 1).state && t.arbiter.issued == []

theorem test_failures_dropped :
    let slotWrite := withSlot6 { slot .writing with linesWritten := 1 } (with1 live)
    let mark := with1 { live with pendingMark := some (pendingAt (some ⟨4, 0x20180, 0⟩)) }
    let prefetch := with1 { live with next := .fetching 0x10040 }
    let first := with1 (opening (gathering true))
    let update := with1 (extending (.updating false 0x80) live)
    (handling cold).check.state ≠ .normal
    ∧ kept (.recordLineAnswer 3 .error) (owed (aWrite (.slotRecord 6 true)) slotWrite) = true
    ∧ kept (.recordLineAnswer 3 .error) (owed (aWrite (.markRecord 1 true)) mark) = true
    ∧ kept (.descriptorFetchAnswer 3 .error) (owed (aRead (.descriptor 1)) prefetch) = true
    ∧ kept (.descriptorFetchAnswer 3 (.data 0)) (owed (aRead (.descriptor 1)) prefetch) = true
    ∧ kept (.descriptorFetchAnswer 3 .error) (owed (aRead (.firstDescriptor 1)) first) = true
    ∧ kept (.descriptorFetchAnswer 3 (.data 0)) (owed (aRead (.firstDescriptor 1)) first) = true
    ∧ kept (.descriptorUpdateReadAnswer 3 .error) (owed (aRead (.updateRead 1)) update) = true
    ∧ kept (.descriptorUpdateWriteAnswer 3 .error) (owed (aWrite (.updateWrite 1)) update) = true
    ∧ kept (.anchorWriteLineAnswer 3 .error) (anchored 3 [.release]) = true
    ∧ kept (.resumeDescriptorAnswer 3 .error) (resuming (.resumeDescriptor 1) 4) = true
    ∧ kept (.resumeDescriptorAnswer 3 (.data 0)) (resuming (.resumeDescriptor 1) 4) = true
    ∧ kept (.scanReadAnswer 3 .error) (resuming (.scanRead 1 4 false) 4) = true
    ∧ kept (.journalReadAnswer 3 .error) (walking (aRead (.journalRead 3 false))) = true
    ∧ kept (.restoreWriteAnswer 3 .error) (walking (aWrite (.restore 3))) = true
    ∧ kept (.truncationDescriptorAnswer 3 .error) (walking (aRead (.truncationDescriptor 1))) = true
    ∧ kept (.truncationDescriptorAnswer 3 (.data 0)) (walking (aRead (.truncationDescriptor 1))) = true := by decide +kernel

theorem test_prefetch_endsAttach :
    let d (st : StreamState) := owed (aRead (.descriptor 1)) (with1 { live with
      state := st, next := .fetching 0x10040, attach := some scanning, operation := some ⟨.attach, 9, 0, 0, 0, 0, 0⟩ })
    lastStatus (after (.descriptorFetchAnswer 3 .error) (d .resuming)) = some .failed
    ∧ (after (.descriptorFetchAnswer 3 .error) (d .opening)).report.queue.map (·.second) = [5]
    ∧ (after (.descriptorFetchAnswer 3 (.data 0)) (d .opening)).report.queue.map (·.second) = [6]
    ∧ ((after (.descriptorFetchAnswer 3 (.data 0)) (d .resuming)).streams.get 1).state = .detached
    ∧ (parseDescriptor 0 0x10040).valid 0 = false := by decide +kernel

theorem test_recordAddress :
    let x := { live with history := [⟨0x10000, 0x20000, 16, 1, false⟩, ⟨0x10040, 0x30000, 16, 17, false⟩] }
    recordAddress x 1 = 0x20000 ∧ recordAddress x 16 = 0x20780 ∧ recordAddress x 17 = 0x30000 ∧ recordAddress x 20 = 0x30180
    ∧ recordAddress x 0 = 0 ∧ recordAddress { x with history := [] } 5 = 0 := by decide +kernel

theorem test_restore_free :
    let d := owed (aWrite (.restore 3)) (with1 live)
    d.engine.owner = none ∧ (after (.restoreWriteAnswer 3 .error) d).arbiter.issued = []
    ∧ ((after (.restoreWriteAnswer 3 .error) d).streams.get 1).state = .active := by decide +kernel

/-- Stream 1 to be invalidated while an abandoned tag, or a request of tag 5, stands on line C40h of its copy B. -/
def blockedBy (abandoned : Bool) (q : Option Request) : Device :=
  let d := invalidating live
  { d with
    arbiter := { d.arbiter with issued := [⟨9, ⟨.discard .c5, 0xC40, true, fullMask, 0⟩, true, abandoned, 0⟩] }
    path := { d.path with requests := d.path.requests.set 5 q } }

theorem test_lineBlocked :
    let q (covering : Option RegionNo) (st : RequestState) : Request := ⟨true, 0xC40, 1, 7, covering, none, some 0, 0, st⟩
    let stage (d : Device) := (startInvalidation d 1).check.stages.get 1
    lineBlocked (blockedBy true none) 0xC40 = true ∧ lineBlocked (blockedBy true none) 0xC80 = false
    ∧ stage (blockedBy true none) = .none ∧ stage (blockedBy false none) = .offered
    ∧ lineBlocked (blockedBy false (some (q (some 2) .ready))) 0xC40 = true
    ∧ stage (blockedBy false (some (q (some 2) .ready))) = .none ∧ stage (blockedBy false (some (q (some 2) .waitOrder))) = .none
    ∧ stage (blockedBy false (some (q (some 2) .forwarded))) = .offered ∧ stage (blockedBy false (some (q none .ready))) = .offered
    ∧ stage (blockedBy false (some (q (some 2) .waitMode))) = .offered := by decide +kernel

theorem test_unansweredLines :
    unansweredAnchorLines (losingWith (aWrite (.anchorWrite 1 0))) 1 ≠ []
    ∧ (∀ l ∈ unansweredAnchorLines (losingWith (aWrite (.anchorWrite 1 0))) 1, l = 0x80)
    ∧ unansweredAnchorLines (losingWith (aWrite (.anchorWrite 1 0))) 0 = [] := by decide +kernel

/-! The choices of logs 58 to 60. -/

theorem test_link_afterEntry :
    let t := after (.descriptorUpdateWriteAnswer 3 .done)
      (owed (aWrite (.updateWrite 1)) (with1 (extending (.updating false 0x10000) live)))
    live.next = .absent ∧ (t.streams.get 1).extensionLink = some 0x10040 ∧ (t.streams.get 1).next = .absent
    ∧ lastStatus t = some .ok := by decide +kernel

theorem test_closing_queued :
    let line := windowBase cold.winsel + 0x140
    let closing : PortRequest := ⟨.faultClosing, line, true, fullMask, 0⟩
    let d : Device := { checking .close with
      arbiter := { cold.arbiter with issued := [⟨9, ⟨.forward 5, line, true, fullMask, 0⟩, true, false, 0⟩] }
      path := { cold.path with locks := [⟨line, .held, [.own closing]⟩] } }
    let t := after (.memoryResponseLimit ⟨9, none⟩) d
    t.check.state = .close ∧ (lockOf t line).queue = [.own closing]
    ∧ (after (.abandonedTagAnswer 9 .done) t).check.state = .close
    ∧ (lockOf (after (.abandonedTagAnswer 9 .done) t) line).queue = []
    ∧ (after (.abandonedTagAnswer 9 .done) t).arbiter.waiting.map (·.job) = [.faultClosing] := by decide +kernel

theorem test_awaited_loss :
    let x := { live with
      state := .broken, lossCause := some .recordWrite, invalidation := .outstanding
      anchorOutstanding := some ⟨[.loss 2], .b, 0xC00, 8, 3⟩ }
    let d : Device := owed (aWrite (.anchorWrite 1 0)) { invalidating x with
      check := { (invalidating x).check with stages := (Table.fill 4 .none).set 1 .awaiting } }
    let t := after (.anchorWriteLineAnswer 3 .error) d
    t.check.state = .close ∧ t.check.second = some (.invalidationWrite, .none) ∧ t.check.results.get 1 = .notAttempted := by
  decide +kernel

/-! ## Fifth review: the head-line write across a device clear, EXTEND during a handling -/

/-- A part with a head-line write outstanding, after a device clear. -/
def headCleared : Device := deviceClear { owed (aWrite .headLine) headWaits with
  command := { headWaits.command with headOutstanding := true, headAsked := true } }

theorem test_headLine_cleared :
    let d := offerHeadLine headCleared
    headCleared.command.headOutstanding = true ∧ headCleared.command.headWaiting = false
    ∧ (issuedAt headCleared 3).map (fun i => (i.request, i.abandoned)) = some (aWrite .lateHeadLine, false) ∧ d.command.headWaiting = true ∧ d.command.headAsked = false
    ∧ (∀ a ∈ [MemAnswer.done, .error], let t := after (.headLineWriteAnswer ⟨3, none⟩ a) d
      t.command.headAsked = true ∧ t.check.state = .normal ∧ t.arbiter.waiting.map (·.job) = [.headLine]
      ∧ t.arbiter.issued = [] ∧ t.command.headOutstanding = false)
    ∧ (after (.headLineWriteAnswer ⟨3, none⟩ .done) headCleared).command.headAsked = false
    ∧ (deviceClear headCleared).arbiter.issued.map (·.request.job) = [.lateHeadLine] := by
  decide +kernel

theorem test_headLine_abandoned :
    let d : Device := { headWaits with
      command := { headWaits.command with headOutstanding := true }
      arbiter := { cold.arbiter with issued := [⟨3, aWrite .headLine, false, true, 0⟩] } }
    let t := after (.abandonedTagAnswer 3 .done) d
    let c := after (.abandonedTagAnswer 3 .error) (deviceClear d)
    t.command.headOutstanding = false ∧ t.command.headAsked = true
    ∧ (deviceClear d).command.headOutstanding = true ∧ c.command.headOutstanding = false ∧ c.arbiter.issued = [] := by
  decide +kernel

theorem test_ownerless : Job.ownerless .headLine = .lateHeadLine ∧ Job.ownerless .report = .discard .c1 := ⟨rfl, rfl⟩

theorem test_extend_handling :
    let fetched := handling (owed (aRead (.descriptor 1))
      (with1 { extending (.fetching 0x10000) exhausted with next := .fetching 0x10040 }))
    let t := after (.descriptorFetchAnswer 3 (.data goodLine)) fetched
    (t.streams.get 1).state = .active ∧ lastStatus t = some .ok ∧ (t.streams.get 1).stallStart = none
    ∧ (let u := handling (owed (aWrite (.updateWrite 1)) (with1 (extending (.updating false 0x10000) live)))
       lastStatus (after (.descriptorUpdateWriteAnswer 3 .done) u) = some .ok)
    ∧ lastStatus (after (.extendTargetChoice 1)
      (handling (with1 { extending .choosing live with next := .held 0x10080 (chainEnd false) }))) = some .chainNotEnded := by
  decide +kernel

/-! ## Sixth review: an ATTACH whose failure is dropped, a walk to sequence 0, a mark that no segment holds -/

theorem test_attach_dropped :
    let read (g : MemTag) (c : Copy) : Issued := ⟨g, aRead (.anchorRead 1 c 0), false, false, 0⟩
    let d := readingAnchor (gathering false)
    let waits : Device := { d with arbiter := { d.arbiter with
      issued := [read 3 .a, read 4 .b], waiting := [aRead (.anchorRead 1 .b 1)] } }
    let t := after (.anchorReadAnswer 3 .error) (handling waits)
    let u := after (.anchorReadAnswer 4 (.data 0)) t
    t.arbiter.issued.map (·.request.job) = [.discard .c1] ∧ t.arbiter.waiting.map (·.job) = [.faultFirst]
    ∧ (t.streams.get 1).state = .resuming ∧ (u.streams.get 1).attach.map (fun a => (a.judged, a.failed)) = some (false, true)
    ∧ kinds u = [] ∧ u.arbiter.issued = []
    ∧ (startInvalidation (invalidating (u.streams.get 1)) 1).check.stages.get 1 = .none := by decide +kernel

theorem test_dropped_anchorWrites :
    let x := { opening gathered with anchorOutstanding := some ⟨[.attachSecond], .b, 0xC00, 8, 15⟩ }
    let d (g : InvalidateStage) (x : Stream) : Device :=
      { invalidating x with check := { (invalidating x).check with stages := (Table.fill 4 .none).set 1 g } }
    let lost := { opening gathered with invalidation := .waiting, anchorWaiting := some ⟨[.loss 2], some (0x800, invalidationContents live)⟩ }
    let t := after (.anchorWriteLineAnswer 3 .done) (owed (aWrite (.anchorWrite 1 0)) (dropFault 1 (d .awaiting x)))
    ((dropFault 1 (d .none x)).streams.get 1).anchorOutstanding = none
    ∧ ((dropFault 1 (d .awaiting x)).streams.get 1).anchorOutstanding.map (·.occasions) = some []
    ∧ (t.streams.get 1).state = .opening ∧ kinds t = [] ∧ t.check.stages.get 1 = .offered ∧ (t.streams.get 1).generation = 8
    ∧ ((dropFault 1 (d .none lost)).streams.get 1).anchorWaiting.map (·.occasions) = some [.loss 2]
    ∧ dropFault 1 (handling (with1 live)) = handling (with1 live)
    ∧ (offerAnchorReads 1 (with1 (opening { gathering true with readsOffered := false, failed := true }))).arbiter.waiting = [] := by
  decide +kernel

theorem test_walk_stops_at_target :
    let t := refillWindow 8 1 (windowed [] 0)
    t.engine.window.map (·.sequence) = [5, 4, 3] ∧ t.engine.readPointer = some 3 ∧ t.engine.targetOffered = true
    ∧ refillWindow 8 1 t = t ∧ refillWindow 8 1 (popRecord t) = popRecord t
    ∧ (refillWindow 2 1 (windowed [] 0)).engine.readPointer = some 3
    ∧ (refillWindow 2 1 (windowed [] 0)).engine.targetOffered = false := by decide +kernel

theorem test_walk_to_zero :
    let d := windowed [] 0
    let t := refillWindow 8 1 { d with engine := { d.engine with
      readPointer := some 1, applyPointer := some 1, targetSequence := some 0 } }
    t.engine.window.map (·.sequence) = [1, 0] ∧ t.engine.readPointer = some 0 ∧ (refillWindow 8 1 t).engine.window.length = 2
    ∧ (popRecord (popRecord t)).engine.applyPointer = some 0 ∧ (refillWindow 8 1 (popRecord (popRecord t))).engine.window = [] := by
  decide +kernel

theorem test_truncate_noSegment :
    let d := truncate 1 0 1 (rolling .restoring .command live)
    (d.streams.get 1).history = [] ∧ d.arbiter.waiting.map (fun r => (r.job, r.line)) = [(.truncationDescriptor 1, 0)]
    ∧ (truncationAnswered 1 (.data 0) d).engine.phase = .truncating := by decide +kernel

theorem test_entry_at_loss :
    let d := with1 { live with entering := true, history := [⟨0x10000, 0x20000, 16, 1, true⟩]
                               anchorOutstanding := some ⟨[.entry 2], .b, 0xC00, 8, 15⟩ }
    let lost := anchorLineAnswered 1 .done (loseStream 1 .exhaustion true 0 0 d)
    kinds (anchorLineAnswered 1 .done d) = [.segmentEntered] ∧ kinds lost = [.streamLost]
    ∧ (lost.streams.get 1).generation = 8 ∧ lost.arbiter.waiting = [] := by decide +kernel

theorem test_loss_epoch :
    let x := { live with pendingMark := some (pendingAt none) }
    let t := loseStream 1 .exhaustion true 0 0 (with1 x)
    (((t.streams.get 1).anchorWaiting.bind (·.frozen)).map (·.2.epoch)) = some 2
    ∧ (invalidationContents x).epoch = 1 := by decide +kernel

/-- A handling in this state, of stream 1 attached, which the failure of this stream's own invalidation caused. -/
def causedBy (loss : Option StreamNo) (p : CheckState) (x : Stream) : Device :=
  let d := invalidating x
  { d with check := { d.check with
    state := p, results := Table.fill 4 .notAttempted, stages := Table.fill 4 .none, lossStream := loss } }

theorem test_second_in_record :
    let t := deviceCheck .memoryTimeout .none (causedBy (some 1) .record live)
    t.check.state = .close ∧ t.check.results.get 1 = .notAttempted
    ∧ ((startInvalidation (causedBy (some 1) .invalidate live) 1).check.results.get 1) = .notInvalidated
    ∧ ((startInvalidation (causedBy (some 1) .invalidate (opening (gathering true))) 1).check.results.get 1) = .notInvalidated := by
  decide +kernel

theorem test_loss_fails_in_hold :
    let x : Stream := { live with
      state := .broken, invalidation := .outstanding, anchorOutstanding := some ⟨[.loss 2], .b, 0xC00, 8, 3⟩ }
    let held := anchorLineAnswered 1 .error (causedBy none .hold x)
    let recording := anchorLineAnswered 1 .error (causedBy none .record x)
    held.check.second = some (.invalidationWrite, .none) ∧ held.check.lossStream = none
    ∧ (startInvalidation held 1).check.stages.get 1 = .offered
    ∧ recording.check.state = .close ∧ recording.check.results.get 1 = .notAttempted := by decide +kernel

theorem test_closing_before_grants :
    let d := withRequest5 ⟨true, 0x80, 1, 7, none, none, some 0, 0, .waitOrder⟩ (owed (aWrite .faultClosing) (checking .close))
    let d := { d with path := { d.path with locks := [⟨0x80, .held, [.upstream 5 true]⟩] } }
    let t := after (.faultRecordClosingLineAnswer 3 .done) d
    t.responses = [(5, .retry)] ∧ t.path.requests.get 5 = none ∧ t.path.locks = [] := by decide +kernel

end Sys2Proof.Tests
end

/-! PROOF. SET_REGION at its taking (R9, R10): what its argument check and the overlap test say, the outcome of each of its
checks, and the statement `Obligations.RegionSet` from these. -/
namespace Sys2Proof.Proofs
open Sys2Proof Sys2Proof.Machine

/-! ## The argument check -/

theorem targetRegion_eq_some_iff {h : CmdHead} {r : RegionNo} : targetRegion h = some r ↔ h.target.toNat = r.1 := by
  unfold targetRegion
  split
  · simp [Fin.ext_iff]
  · have : h.target.toNat ≠ r.1 := by omega
    simpa using this

/-- The stream byte of SET_REGION names a stream, or says that there is none. -/
def BindingByte (v : BitVec 8) : Prop := v.toNat < 4 ∨ v = 0xFF

/-- A binding is the stream whose number the byte is, and none when the byte is no stream's number. -/
def BindsTo (v : BitVec 8) (b : Option StreamNo) : Prop := ∀ i : StreamNo, b = some i ↔ v.toNat = i.1

theorem BindsTo.unique {v : BitVec 8} {b c : Option StreamNo} (hb : BindsTo v b) (hc : BindsTo v c) : b = c :=
  Option.ext fun i => (hb i).trans (hc i).symm

/-- An accepted stream byte is read as the binding it stands for. -/
theorem exists_bindingOf {v : BitVec 8} (h : BindingByte v) : ∃ b, bindingOf v = some b ∧ BindsTo v b := by
  by_cases p : v.toNat < 4
  · exact ⟨some ⟨v.toNat, p⟩, by simp [bindingOf, p], fun i => by simp [Fin.ext_iff]⟩
  · have none_named : v = 0xFF := h.resolve_left p
    have no_stream (i : StreamNo) : v.toNat ≠ i.1 := by omega
    exact ⟨none, by simp [bindingOf, none_named], fun i => by simp [no_stream i]⟩

theorem bindingOf_eq_none {v : BitVec 8} (h : ¬ BindingByte v) : bindingOf v = none := by
  obtain ⟨not_stream, not_none⟩ := not_or.mp h
  have : v.toNat ≠ 255 := fun e => not_none (BitVec.eq_of_toNat_eq e)
  simp [bindingOf, not_stream, this]

/-- The first check of R10's table. -/
def ArgumentsGood (h : CmdHead) (base : BitVec 64) (exponent stream : BitVec 8) : Prop :=
  h.target.toNat < 16 ∧ 12 ≤ exponent.toNat ∧ exponent.toNat ≤ 40 ∧ base.toNat % 2 ^ exponent.toNat = 0
    ∧ base.toNat < 2 ^ 40 ∧ BindingByte stream

section
variable {h : CmdHead} {base : BitVec 64} {exponent stream : BitVec 8}

/-- Good arguments are read as the region named and the binding that the stream byte stands for. -/
theorem exists_regionArgs {r : RegionNo} (good : ArgumentsGood h base exponent stream) (target : h.target.toNat = r.1) :
    ∃ b, regionArgs h base exponent stream = some (r, b) ∧ BindsTo stream b := by
  obtain ⟨-, least, most, aligned, inSpace, binding⟩ := good
  obtain ⟨b, read, binds⟩ := exists_bindingOf binding
  refine ⟨b, ?_, binds⟩
  simp only [regionArgs, targetRegion_eq_some_iff.mpr target, read]
  exact if_pos ⟨least, most, aligned, inSpace⟩

/-- Whatever the argument check lets pass is good. -/
theorem good_of_regionArgs {p : RegionNo × Option StreamNo} (passed : regionArgs h base exponent stream = some p) :
    ArgumentsGood h base exponent stream := by
  unfold regionArgs at passed
  split at passed
  next r b target read =>
    split at passed
    next range =>
      obtain ⟨least, most, aligned, inSpace⟩ := range
      have binding : BindingByte stream := by
        by_contra bad
        simp [bindingOf_eq_none bad] at read
      exact ⟨targetRegion_eq_some_iff.mp target ▸ r.2, least, most, aligned, inSpace, binding⟩
    next => cases passed
  next => cases passed

theorem regionArgs_of_not_good (bad : ¬ ArgumentsGood h base exponent stream) : regionArgs h base exponent stream = none :=
  Option.eq_none_iff_forall_ne_some.mpr fun _ passed => bad (good_of_regionArgs passed)

end

/-! ## What decodes and what overlaps -/

theorem decodes_iff {e : Region} : e.decodes = true ↔ e.requested ≠ .off ∨ e.effective ≠ .off := by
  simp [Region.decodes]

theorem rangesMeet_iff {base length base' length' : Nat} :
    rangesMeet base length base' length' = true ↔ base < base' + length' ∧ base' < base + length := by
  simp [rangesMeet]

theorem meetsWindow_iff {winsel : BitVec 8} {base length : Nat} :
    meetsWindow winsel base length = true ↔ base < windowBase winsel + 4096 ∧ windowBase winsel < base + length := by
  simp [meetsWindow]

/-- The overlap test fails exactly where R9 says so. -/
theorem overlapPasses_eq_false_iff {d : Device} {r : RegionNo} {base exponent : Nat} :
    overlapPasses d r base exponent = false ↔ Overlaps d r base exponent := by
  unfold overlapPasses Overlaps
  simp only [Bool.and_eq_false_iff, Bool.not_eq_false', meetsWindow_iff, List.all_eq_false, indices, List.mem_finRange,
    true_and, Bool.or_eq_true, beq_iff_eq, Bool.not_eq_true', not_or, Bool.not_eq_false, decodes_iff, rangesMeet_iff, and_assoc]

theorem overlapPasses_iff {d : Device} {r : RegionNo} {base exponent : Nat} :
    overlapPasses d r base exponent = true ↔ ¬ Overlaps d r base exponent := by
  rw [← overlapPasses_eq_false_iff, Bool.not_eq_false]

/-! ## The outcome of each check -/

section
variable {h : CmdHead} {base : BitVec 64} {exponent stream : BitVec 8} {d : Device} {r : RegionNo} {b : Option StreamNo}

theorem runSetRegion_badArgument (args : regionArgs h base exponent stream = none) :
    runSetRegion h base exponent stream d = commandDone (regionDone h .badArgument) d := by
  simp only [runSetRegion, args]

theorem runSetRegion_regionInUse (args : regionArgs h base exponent stream = some (r, b))
    (used : (d.regions.get r).decodes = true) :
    runSetRegion h base exponent stream d = commandDone (regionDone h .regionInUse) d := by
  simp only [runSetRegion, args, if_pos used]

theorem runSetRegion_overlap (args : regionArgs h base exponent stream = some (r, b))
    (unused : ¬ (d.regions.get r).decodes = true) (overlaps : Overlaps d r base.toNat exponent.toNat) :
    runSetRegion h base exponent stream d = commandDone (regionDone h .overlap) d := by
  have fails : ¬ overlapPasses d r base.toNat exponent.toNat = true := fun p => overlapPasses_iff.mp p overlaps
  simp only [runSetRegion, args, if_neg unused, if_neg fails]

/-- All checks pass: the range and the binding are written, and nothing else of the part before its COMMAND_DONE. -/
theorem runSetRegion_ok (args : regionArgs h base exponent stream = some (r, b))
    (unused : ¬ (d.regions.get r).decodes = true) (clear : ¬ Overlaps d r base.toNat exponent.toNat) :
    runSetRegion h base exponent stream d = commandDone (regionDone h .ok) { d with
      regions := d.regions.set r { d.regions.get r with base := base.toNat, exponent := exponent.toNat, stream := b } } := by
  simp only [runSetRegion, args, if_neg unused, if_pos (overlapPasses_iff.mpr clear), Device.withRegion]

end

/-- A SET_REGION that may be taken is run on the part with its chain state moved. -/
theorem exec_setRegion_taking {h : CmdHead} {base : BitVec 64} {exponent stream : BitVec 8} {s : State} {d : Device}
    (taking : Taking s.dev) (run : runSetRegion h base exponent stream (chained h s.dev) = d) :
    exec (.setRegion h base exponent stream) s = .next { s with dev := finish d } := by
  rw [exec_setRegion, event, takeRecord_taking _ _ taking, run]

/-- Settles O52: each clause is one outcome of `runSetRegion`. The chain state does not enter the checks, so a test on the
part before the taking is the test on `chained`. -/
theorem regionSet : Obligations.RegionSet := by
  unfold Obligations.RegionSet
  intro s h base exponent stream taking answer answered good
  refine ⟨fun (bad : ¬ ArgumentsGood h base exponent stream) => ?_,
    fun (args : ArgumentsGood h base exponent stream) r target => ?_⟩
  · exact exec_setRegion_taking taking (runSetRegion_badArgument (regionArgs_of_not_good bad))
  · obtain ⟨b, read, binds⟩ := exists_regionArgs args target
    refine ⟨fun used => ?_, fun requested effective => ?_⟩
    · exact exec_setRegion_taking taking (runSetRegion_regionInUse read (decodes_iff.mpr used))
    · have unused : ¬ (s.dev.regions.get r).decodes = true := by simp [decodes_iff, requested, effective]
      refine ⟨fun overlaps => ?_, fun clear c binds' => ?_⟩
      · exact exec_setRegion_taking taking (runSetRegion_overlap read unused overlaps)
      · obtain rfl : b = c := binds.unique binds'
        exact exec_setRegion_taking taking (runSetRegion_ok read unused clear)

end Sys2Proof.Proofs

/-! PROOF. A request whose tag is in use (R19): what acceptance does with it outside and within a device check's handling, and
the statement `Obligations.TagConflictDropped` from these. -/
namespace Sys2Proof.Proofs
open Sys2Proof Sys2Proof.Machine

theorem normal_iff {d : Device} : normal d = true ↔ d.check.state = .normal := by
  simp [normal]

/-- The CHECK report of a tag conflict: stream none, the dropped request's line, the cause code 16 and the tag (R19). -/
def tagConflictReport (t : ReqTag) (line : Nat) : Report :=
  { kind := .check, status := .failed, stream := 0xFF, address := line, first := 16, second := t.1 }

section
variable {t : ReqTag} {q : Request} {d : Device} (write : Bool) (line : Nat) (mask : Mask) (data : Line)

/-- In NORMAL the drop leaves its report, and neither the request table nor a line is touched. -/
theorem acceptRequest_tagInUse_normal (inUse : d.path.requests.get t = some q) (state : d.check.state = .normal) :
    acceptRequest t write line mask data d = pushReport (tagConflictReport t line) d := by
  simp only [acceptRequest, inUse, if_pos (normal_iff.mpr state)]
  rfl

/-- A contained check is dropped while a device check is handled (R163), so that the drop leaves nothing. -/
theorem acceptRequest_tagInUse_handling (inUse : d.path.requests.get t = some q) (state : d.check.state ≠ .normal) :
    acceptRequest t write line mask data d = d := by
  simp only [acceptRequest, inUse, if_neg (mt normal_iff.mp state)]

/-- What acceptance does on a tag conflict, be the request a READ or a WRITE. -/
theorem acceptRequest_tagInUse (inUse : d.path.requests.get t = some q) :
    acceptRequest t write line mask data d =
      if d.check.state = .normal then pushReport (tagConflictReport t line) d else d := by
  split
  next state => exact acceptRequest_tagInUse_normal write line mask data inUse state
  next state => exact acceptRequest_tagInUse_handling write line mask data inUse state

end

/-- Settles O14: both commands are the event of `acceptRequest`, which drops on a tag conflict whatever the request carries. -/
theorem tagConflictDropped : Obligations.TagConflictDropped := by
  unfold Obligations.TagConflictDropped
  intro s t q line mask data inUse report dropped
  have drops (write : Bool) (mask : Mask) (data : Line) : acceptRequest t write line mask data s.dev = dropped :=
    acceptRequest_tagInUse write line mask data inUse
  exact ⟨by rw [exec_requesterRead, event_next, drops], by rw [exec_requesterWrite, event_next, drops]⟩

end Sys2Proof.Proofs

/-! PROOF. How RING_SETUP and COMMAND_TAIL values are judged (R140, R141): what the placement tests say, and the statement
`Obligations.CommandWordsJudged` from these. -/
namespace Sys2Proof.Proofs
open Sys2Proof Sys2Proof.Machine

theorem windowBase_eq (winsel : BitVec 8) : windowBase winsel = winsel.toNat * 0x100000000 + 0xFFFFF000 := by
  simp [windowBase]

/-- The placement tests that RING_SETUP and REPORT_SETUP share, as R140 and R154 word them: the ring misses the window where it
starts past the window's end or ends before its start. -/
theorem ringPlaced_iff {winsel : BitVec 8} {low high : Nat} {v : BitVec 64} :
    ringPlaced winsel low high v = true ↔
      low ≤ ringExponent v ∧ ringExponent v ≤ high ∧ ringBase v % 64 = 0
        ∧ ringBase v + 2 ^ ringExponent v * 64 ≤ 2 ^ 40
        ∧ (windowBase winsel + 4096 ≤ ringBase v ∨ ringBase v + 2 ^ ringExponent v * 64 ≤ windowBase winsel) := by
  simp only [ringPlaced, Bool.and_eq_true, decide_eq_true_eq, Bool.not_eq_true', ← Bool.not_eq_true, meetsWindow_iff,
    not_and_or, not_lt, and_assoc]
  rfl

/-- Settles O16: the events of `judgeRingSetup` and `judgeCommandTail`; the conditions of R140 are the placement tests with the
bounds 2 and 8. -/
theorem commandWordsJudged : Obligations.CommandWordsJudged := by
  unfold Obligations.CommandWordsJudged
  refine ⟨windowBase_eq, fun s v => ?_, fun s v admission => ?_⟩
  · rw [exec_ringSetup, event_next, judgeRingSetup]
    simp only [ringPlaced_iff]
    rfl
  · rw [exec_commandTail, event_next, judgeCommandTail]
    rfl

end Sys2Proof.Proofs

/-! PROOF. Commands that answer and change nothing else (R148, R150, R151): the taking of a record as an event, what the items
of QUERY_STREAM carry in the terms of Table 8-4a, and the statements `Obligations.NopAndIdentify` and
`Obligations.QueriesAnswered` from these. -/
namespace Sys2Proof.Proofs
open Sys2Proof Sys2Proof.Machine

/-- The event of a record that may be taken is its command's run on the part with the chain state moved. -/
theorem event_takeRecord_taking {s : State} {h : CmdHead} (opcode : Nat) (run : Device → Device) (taking : Taking s.dev) :
    event (takeRecord h opcode run) s = .next { s with dev := finish (run (chained h s.dev)) } := by
  rw [event_next, takeRecord_taking opcode run taking]

/-- Settles O49: `runNop` and `runIdentify` are nothing but their COMMAND_DONE. -/
theorem nopAndIdentify : Obligations.NopAndIdentify := by
  unfold Obligations.NopAndIdentify
  intro s h taking
  refine ⟨?_, ?_⟩
  · rw [exec_nop, event_takeRecord_taking _ _ taking, runNop, plainDone]
  · rw [exec_identify, event_takeRecord_taking _ _ taking, runIdentify, identifyDone, plainDone]

/-! ## The target of a query -/

theorem targetRegion_eq_none {h : CmdHead} (outside : 16 ≤ h.target.toNat) : targetRegion h = none :=
  dif_neg (Nat.not_lt.mpr outside)

theorem targetStream_eq_none {h : CmdHead} (outside : 4 ≤ h.target.toNat) : targetStream h = none :=
  dif_neg (Nat.not_lt.mpr outside)

theorem targetStream_eq_some {h : CmdHead} {st : StreamNo} (target : h.target.toNat = st.1) : targetStream h = some st := by
  have inside : h.target.toNat < 4 := target ▸ st.2
  rw [targetStream, dif_pos inside]
  exact congrArg some (Fin.ext target)

section
variable {h : CmdHead} {item : BitVec 8} {d : Device} {r : RegionNo} {st : StreamNo}

theorem runQueryRegion_badArgument (outside : 16 ≤ h.target.toNat) :
    runQueryRegion h d = commandDone (regionDone h .badArgument) d := by
  simp only [runQueryRegion, targetRegion_eq_none outside]

theorem runQueryRegion_ok (target : h.target.toNat = r.1) :
    runQueryRegion h d = commandDone (regionFields h (d.regions.get r)) d := by
  simp only [runQueryRegion, targetRegion_eq_some_iff.mpr target]

/-- A target that is no stream and an item past the last one are refused alike. -/
theorem runQueryStream_badArgument (bad : 4 ≤ h.target.toNat ∨ 26 < item.toNat) :
    runQueryStream h item d = commandDone (streamAnswer h .badArgument) d := by
  unfold runQueryStream
  split
  next => rfl
  next st target =>
    have inside : ¬ 4 ≤ h.target.toNat := fun outside => by simp [targetStream_eq_none outside] at target
    exact if_neg (Nat.not_le.mpr (bad.resolve_left inside))

theorem runQueryStream_ok (target : h.target.toNat = st.1) (known : item.toNat ≤ 26) :
    runQueryStream h item d = commandDone (streamFields h d st item.toNat) d := by
  simp only [runQueryStream, targetStream_eq_some target, if_pos known]

end

/-! ## Which item answers what -/

section
variable {h : CmdHead} {d : Device} {st : StreamNo} {item : Nat}

theorem streamFields_state : streamFields h d st 0 = stateItem (streamAnswer h .ok) (d.streams.get st) := rfl

theorem streamFields_chain : streamFields h d st 1 = chainItem (streamAnswer h .ok) (d.streams.get st) := rfl

theorem streamFields_mark (first : 2 ≤ item) (last : item ≤ 9) :
    streamFields h d st item = markItem (streamAnswer h .ok) (d.streams.get st) (item - 2) := by
  have not_state : item ≠ 0 := by omega
  have not_chain : item ≠ 1 := by omega
  simp only [streamFields, if_neg not_state, if_neg not_chain, if_pos last]

theorem streamFields_history (first : 10 ≤ item) (last : item ≤ 25) :
    streamFields h d st item = historyItem (streamAnswer h .ok) (d.streams.get st) (item - 10) := by
  have not_state : item ≠ 0 := by omega
  have not_chain : item ≠ 1 := by omega
  have not_mark : ¬ item ≤ 9 := by omega
  simp only [streamFields, if_neg not_state, if_neg not_chain, if_neg not_mark, if_pos last]

theorem streamFields_rollback : streamFields h d st 26 = rollbackItem (streamAnswer h .ok) st (d.streams.get st) d.engine := rfl

end

/-! ## The items

`(o.map f).getD 0` is the one spelling of Table 8-4a's zero for what is absent. -/

theorem operationCode_eq (o : Option Operation) : operationCode o = (o.map (·.kind.code)).getD 0 := by cases o <;> rfl

theorem causeCode_eq (c : Option Cause) : causeCode c = (c.map Cause.code).getD 0 := by cases c <;> rfl

theorem policyCode_eq (p : Policy) : p.code = if p = .breakStream then 1 else 0 := by cases p <;> rfl

section
variable {r : Report} {x : Stream} {i : Nat}

theorem nextCode_eq : nextCode x = match x.next with
    | .absent => 0
    | .fetching _ => 1
    | .held _ _ => if x.extensionLink = none then 2 else 3 := by
  unfold nextCode
  cases x.next with
  | absent => rfl
  | fetching => rfl
  | held => cases x.extensionLink <;> rfl

theorem markItem_of_lt (p : i < x.marks.length) : markItem r x i =
    { r with epoch := x.marks[i].epoch, label := x.marks[i].label.toNat, sequence := x.marks[i].sequence
             first := x.marks.length } := by
  simp only [markItem, List.drop_eq_getElem_cons p]

theorem markItem_of_le (p : x.marks.length ≤ i) : markItem r x i = { r with first := x.marks.length } := by
  simp only [markItem, List.drop_eq_nil_of_le p]

theorem historyItem_of_lt (p : i < x.history.length) : historyItem r x i =
    { r with address := x.history[i].descriptor, sequence := x.history[i].first, first := x.history[i].count
             second := x.history[i].base, label := if x.history[i].notify then 1 else 0, epoch := x.history.length } := by
  simp only [historyItem, List.drop_eq_getElem_cons p]

theorem historyItem_of_le (p : x.history.length ≤ i) : historyItem r x i = { r with epoch := x.history.length } := by
  simp only [historyItem, List.drop_eq_nil_of_le p]

end

/-! ## The queries as commands -/

/-- A QUERY_STREAM of item `n` answers that item's fields; the chain state does not enter them. -/
theorem exec_queryStream_ok {s : State} {h : CmdHead} {item : BitVec 8} {st : StreamNo} {n : Nat} (taking : Taking s.dev)
    (target : h.target.toNat = st.1) (named : item.toNat = n) (known : n ≤ 26) :
    exec (.queryStream h item) s =
      .next { s with dev := finish (commandDone (streamFields h s.dev st n) (chained h s.dev)) } := by
  subst named
  rw [exec_queryStream, event_takeRecord_taking _ _ taking, runQueryStream_ok target known]
  rfl

/-- Settles O51: a query is its COMMAND_DONE and nothing else, so that each clause is the equality of two reports, field by
field: `streamFields` picks the item, and the item's lemma gives its fields. -/
theorem queriesAnswered : Obligations.QueriesAnswered := by
  unfold Obligations.QueriesAnswered
  refine ⟨fun s h taking => ⟨fun outside => ?_, fun r target => ?_⟩, fun s h item taking => ⟨fun bad => ?_, ?_⟩⟩
  · rw [exec_queryRegion, event_takeRecord_taking _ _ taking, runQueryRegion_badArgument outside, regionDone]
  · rw [exec_queryRegion, event_takeRecord_taking _ _ taking, runQueryRegion_ok target, regionFields, regionDone, target]
    rfl
  · rw [exec_queryStream, event_takeRecord_taking _ _ taking, runQueryStream_badArgument bad, streamAnswer]
  intro st target x g blank answers code flag
  have code_eq {α : Type} (f : α → Nat) (o : Option α) : code f o = (o.map f).getD 0 := by cases o <;> rfl
  have answered {n : Nat} {r : Report} (named : item.toNat = n) (known : n ≤ 26) (fields : streamFields h s.dev st n = r) :
      answers r := fields ▸ exec_queryStream_ok taking target named known
  have ok_blank : streamAnswer h .ok = blank := by rw [streamAnswer, target]
  refine ⟨fun state => ?_, fun chain => ?_, fun first last => ⟨fun i => ?_, fun beyond => ?_⟩,
    fun first last => ⟨fun i => ?_, fun beyond => ?_⟩, fun rollback other => ?_, fun rollback own => ?_⟩
  · refine answered (n := 0) (congrArg BitVec.toNat state) (by decide) ?_
    rw [streamFields_state, ok_blank, stateItem]
    simp only [code_eq, flag, operationCode_eq, causeCode_eq, Option.map_id_apply, bne_iff_ne, ite_not]
    rfl
  · refine answered (n := 1) (congrArg BitVec.toNat chain) (by decide) ?_
    rw [streamFields_chain, ok_blank, chainItem]
    simp only [code_eq, flag, Option.map_id_apply, beq_iff_eq, policyCode_eq, nextCode_eq]
    rfl
  · exact answered rfl (by omega) (by rw [streamFields_mark first last, ok_blank, markItem_of_lt i])
  · exact answered rfl (by omega) (by rw [streamFields_mark first last, ok_blank, markItem_of_le beyond])
  · exact answered rfl (by omega) (by rw [streamFields_history first last, ok_blank, historyItem_of_lt i])
  · exact answered rfl (by omega) (by rw [streamFields_history first last, ok_blank, historyItem_of_le beyond])
  · refine answered (n := 26) (congrArg BitVec.toNat rollback) (by decide) ?_
    rw [streamFields_rollback, ok_blank, rollbackItem, if_neg other, code_eq, Option.map_id_apply]
  · refine answered (n := 26) (congrArg BitVec.toNat rollback) (by decide) ?_
    rw [streamFields_rollback, ok_blank, rollbackItem, if_pos own]
    simp only [code_eq, Option.map_id_apply]
    rfl

end Sys2Proof.Proofs

/-! PROOF. Where a report goes (R158): which reports enter the queue and what the others leave in the merged summary, and the
statement `Obligations.ReportsQueuedOrMerged` from these. -/
namespace Sys2Proof.Proofs
open Sys2Proof Sys2Proof.Machine

section
variable {r : Report} {u : ReportUnit} {i : Fin 10}

/-- A report tied to a command joins the queue whatever it holds; an asynchronous one where fewer than sixteen wait. -/
theorem push_of_enters (enters : asyncIndex r.kind = none ∨ u.queue.length < 16) :
    u.push r = { u with queue := u.queue ++ [r] } := by
  cases asynchronous : asyncIndex r.kind with
  | none => simp only [ReportUnit.push, asynchronous]
  | some i =>
    have room : u.queue.length < Config.crowdedQueue := enters.resolve_left (by simp [asynchronous])
    simp only [ReportUnit.push, asynchronous, if_pos room]

/-- An asynchronous report that finds the queue crowded leaves it alone. -/
theorem push_of_crowded (asynchronous : asyncIndex r.kind = some i) (crowded : 16 ≤ u.queue.length) :
    u.push r = { u with summary := u.summary.add i r.stream } := by
  have no_room : ¬ u.queue.length < Config.crowdedQueue := Nat.not_lt.mpr crowded
  simp only [ReportUnit.push, asynchronous, if_neg no_room]

end

/-- Settles O9: the Report Unit is all that `pushReport` changes, so that the first three clauses are the cases of
`ReportUnit.push`; the last two list `asyncIndex` by kind. -/
theorem reportsQueuedOrMerged : Obligations.ReportsQueuedOrMerged := by
  unfold Obligations.ReportsQueuedOrMerged
  refine ⟨fun r d tied => ?_, fun r i d _ room => ?_, fun r i d asynchronous crowded => ?_, by decide, by decide⟩
  · rw [pushReport, Device.withReport, push_of_enters (.inl tied)]
  · rw [pushReport, Device.withReport, push_of_enters (.inr room)]
  · rw [pushReport, Device.withReport, push_of_crowded asynchronous crowded]
    rfl

end Sys2Proof.Proofs

/-! PROOF. How REPORT_SETUP, REPORT_ACK and FAULT_ACK values are judged (R154, R157, R170): when the report ring is quiet, which
indices may be acknowledged, and the statement `Obligations.ReportWordsJudged` from these. -/
namespace Sys2Proof.Proofs
open Sys2Proof Sys2Proof.Machine

/-- R154's first condition: no ring is set up, or nothing waits in the queue or in the ring. -/
theorem reportRingBusy_eq_false_iff {u : ReportUnit} :
    reportRingBusy u = false ↔ u.ringSet = false ∨ (u.queue = [] ∧ unacknowledged u = 0) := by
  cases set : u.ringSet with
  | false => simp [reportRingBusy, set]
  | true => simp [reportRingBusy, set]

/-- R157's range: the index is one of the ring, and the indices from the acknowledged one up to it are no more than the
unacknowledged reports. -/
theorem ackInRange_iff {u : ReportUnit} {v : Nat} :
    ackInRange u v = true ↔
      v < 2 ^ (u.exponent + 1) ∧ (v + 2 ^ (u.exponent + 1) - u.acknowledged) % 2 ^ (u.exponent + 1) ≤ unacknowledged u := by
  simp only [ackInRange, Bool.and_eq_true, decide_eq_true_eq]

/-- Settles O17: the events of `judgeReportSetup`, `judgeReportAck` and `judgeFaultAck`; the conditions of R154 are those of
R140 for another ring, with the bounds 3 and 10. -/
theorem reportWordsJudged : Obligations.ReportWordsJudged := by
  unfold Obligations.ReportWordsJudged
  refine ⟨fun s v => ?_, fun s v => ?_, fun s v => ?_⟩
  · rw [exec_reportSetup, event_next, judgeReportSetup]
    simp only [reportRingBusy_eq_false_iff, ringPlaced_iff]
    rfl
  · rw [exec_reportAck, event_next, judgeReportAck]
    simp only [ackInRange_iff]
    rfl
  · rw [exec_faultAck, event_next, judgeFaultAck]
    rfl

end Sys2Proof.Proofs

/-! PROOF. The machine as a whole: a step runs the front command, every command completes, what an event's end does at rest, what
only grants of the memory port and cold resets do, and what every step keeps. Statements `Obligations.StepRunsFrontCommand`,
`EveryCommandCompletes`, `EventEndAtRest`, `OnlyGrantsSend`, `ArbiterBoundsKept`, `LineLocksKept`, `NotifyFollowsRule`,
`ColdResetValues`. -/
namespace Sys2Proof.Proofs
open Sys2Proof Sys2Proof.Machine

/-- Settles O1: both clauses are the two cases of `step`. -/
theorem stepRunsFrontCommand : Obligations.StepRunsFrontCommand := by
  unfold Obligations.StepRunsFrontCommand
  refine ⟨fun c s => rfl, fun s empty => ?_⟩
  rw [step, empty]

/-- Settles O2: a command is an event, which answers a next state and leaves the queue, or the cold reset, which does too. -/
theorem everyCommandCompletes : Obligations.EveryCommandCompletes := by
  unfold Obligations.EveryCommandCompletes
  intro c s
  cases c <;> exact ⟨_, rfl, rfl⟩

/-- Settles O3: at rest the end of an event is `evaluate`. -/
theorem eventEndAtRest : Obligations.EventEndAtRest := by
  unfold Obligations.EventEndAtRest
  intro t rest
  rw [finish_of_quiet rest, evaluate, ageNow]
  simp only [Option.isNone_iff_eq_none]
  rfl

/-! ## Commands other than a grant and the cold reset -/

/-- No command but a grant of the memory port and the cold reset takes a tag, sends, or undoes what `Keep` names. -/
theorem exec_keep {c : Instr} {s s' : State} (h : exec c s = .next s') (no_reset : ∀ w, c ≠ .coldReset w)
    (no_grant : ∀ t, c ≠ .arbiterGrant t) : Keep s.dev s'.dev := by
  have start : Keep s.dev s.dev := Keep.refl s.dev
  have answer {t : MemTag} {a : MemAnswer} (h : event (memoryAnswer t a) s = .next s') : Keep s.dev s'.dev :=
    event_keep (memoryAnswer_keep start _ _) h
  cases c with
  | requesterRead tag line => exact event_keep (acceptRequest_keep start _ _ _ _ _) h
  | requesterWrite tag line mask data => exact event_keep (acceptRequest_keep start _ _ _ _ _) h
  | ringSetup value => exact event_keep (judgeRingSetup_keep start _) h
  | commandTail value admission => exact event_keep (judgeCommandTail_keep start _ _) h
  | reportSetup value => exact event_keep (judgeReportSetup_keep start _) h
  | reportAck value => exact event_keep (judgeReportAck_keep start _) h
  | faultAck value => exact event_keep (judgeFaultAck_keep start _) h
  | requestAdmission region => exact innerEvent_keep (fun _ => tryRequestAdmission_keep start) h
  | modeChangeApplied region => exact innerEvent_keep (fun _ => tryModeChangeApplied_keep start) h
  | lineGrant line failed => exact readingEvent_keep (Keep.getD start fun _ => tryLineGrant_keep start) h
  | slotQueueService slot => exact innerEvent_keep (fun _ => trySlotQueueService_keep start) h
  | arbiterGrant tag => exact absurd rfl (no_grant tag)
  | holdLimitExpiry tag => exact innerEvent_keep (fun _ => tryHoldLimitExpiry_keep start) h
  | memoryResponseLimit tag => exact readingEvent_keep (Keep.getD start fun _ => tryMemoryResponseLimit_keep start) h
  | stallLimitExpiry stream => exact innerEvent_keep (fun _ => tryStallLimitExpiry_keep start) h
  | recordPlacement stream => exact innerEvent_keep (fun _ => tryRecordPlacement_keep start) h
  | extendTargetChoice stream => exact innerEvent_keep (fun _ => tryExtendTargetChoice_keep start) h
  | anchorWriteIssue stream => exact innerEvent_keep (fun _ => tryAnchorWriteIssue_keep start) h
  | detachFinalAnchor stream => exact innerEvent_keep (fun _ => tryDetachFinalAnchor_keep start) h
  | engineClaimHandoff => exact innerEvent_keep (fun _ => tryEngineClaimHandoff_keep start) h
  | holdingEnd => exact innerEvent_keep (fun _ => tryHoldingEnd_keep start) h
  | resumedHoldingEnd => exact innerEvent_keep (fun _ => tryResumedHoldingEnd_keep start) h
  | commandFetchIssue => exact innerEvent_keep (fun _ => tryCommandFetchIssue_keep start) h
  | commandRecordTaken => exact innerEvent_keep (fun _ => tryCommandRecordTaken_keep start) h
  | headLineWriteIssue => exact innerEvent_keep (fun _ => tryHeadLineWriteIssue_keep start) h
  | reportWriteIssue => exact innerEvent_keep (fun _ => tryReportWriteIssue_keep start) h
  | holdSetDrained => exact innerEvent_keep (fun _ => tryHoldSetDrained_keep start) h
  | forwardedRequestAnswer tag a => exact answer h
  | captureReadAnswer tag a => exact answer h
  | recordLineAnswer tag a => exact answer h
  | descriptorFetchAnswer tag a => exact answer h
  | descriptorUpdateReadAnswer tag a => exact answer h
  | descriptorUpdateWriteAnswer tag a => exact answer h
  | anchorWriteLineAnswer tag a => exact answer h
  | anchorReadAnswer tag a => exact answer h
  | resumeDescriptorAnswer tag a => exact answer h
  | scanReadAnswer tag a => exact answer h
  | journalReadAnswer tag a => exact answer h
  | restoreWriteAnswer tag a => exact answer h
  | truncationDescriptorAnswer tag a => exact answer h
  | commandFetchAnswer tag a => exact answer h
  | faultRecordFirstLineAnswer tag a => exact answer h
  | faultRecordClosingLineAnswer tag a => exact answer h
  | abandonedTagAnswer tag a => exact answer h
  | headLineWriteAnswer tag a => exact readingEvent_keep (memoryAnswer_keep start _ _) h
  | reportWriteAnswer tag a => exact readingEvent_keep (memoryAnswer_keep start _ _) h
  | strayResponse tag a => exact readingEvent_keep (memoryAnswer_keep start _ _) h
  | nop head => exact event_keep (takeRecord_keep start _ _ fun _ k => runNop_keep k _) h
  | identify head => exact event_keep (takeRecord_keep start _ _ fun _ k => runIdentify_keep k _) h
  | configure head hold notify => exact event_keep (takeRecord_keep start _ _ fun _ k => runConfigure_keep k _ _ _) h
  | setRegion head base exponent stream =>
    exact event_keep (takeRecord_keep start _ _ fun _ k => runSetRegion_keep k _ _ _ _) h
  | setMode head mode => exact event_keep (takeRecord_keep start _ _ fun _ k => runSetMode_keep k _ _) h
  | queryRegion head => exact event_keep (takeRecord_keep start _ _ fun _ k => runQueryRegion_keep k _) h
  | attachFresh head policy stall label anchor first =>
    exact event_keep (takeRecord_keep start _ _ fun _ k => runAttachFresh_keep k _ _ _ _ _ _) h
  | attachResume head anchor => exact event_keep (takeRecord_keep start _ _ fun _ k => runAttachResume_keep k _ _) h
  | detach head => exact event_keep (takeRecord_keep start _ _ fun _ k => runDetach_keep k _) h
  | extend head descriptor => exact event_keep (takeRecord_keep start _ _ fun _ k => runExtend_keep k _ _) h
  | mark head label => exact event_keep (takeRecord_keep start _ _ fun _ k => runMark_keep k _ _) h
  | release head epoch => exact event_keep (takeRecord_keep start _ _ fun _ k => runRelease_keep k _ _) h
  | rollback head epoch => exact event_keep (takeRecord_keep start _ _ fun _ k => runRollback_keep k _ _) h
  | queryStream head item => exact event_keep (takeRecord_keep start _ _ fun _ k => runQueryStream_keep k _ _) h
  | deviceClear head => exact readingEvent_keep (takeRecord_keep start _ _ fun _ k => runDeviceClear_keep k) h
  | coldReset w => exact absurd rfl (no_reset w)

/-! ## A grant -/

/-- The oldest request of a class is an eligible one (R33). -/
theorem eligible_of_oldestOf {d : Device} {c : PortClass} {r : PortRequest} (h : oldestOf d c = some r) :
    eligible d r = true := by
  have found := List.find?_some h
  simp only [Bool.and_eq_true] at found
  exact found.2

/-- The choice of R34 is one of the five classes' oldest eligible requests. -/
theorem arbiterChoice_oldest {d : Device} {r : PortRequest} (h : arbiterChoice d = some r) : ∃ c, oldestOf d c = some r := by
  unfold arbiterChoice at h
  dsimp only at h
  split at h
  next => exact ⟨_, h⟩
  next =>
    cases c1 : oldestOf d .c1 with
    | some r1 => exact ⟨.c1, by simpa [c1] using h⟩
    | none =>
      cases c2 : oldestOf d .c2 with
      | some r2 => exact ⟨.c2, by simpa [c1, c2] using h⟩
      | none =>
        cases c3 : oldestOf d .c3 with
        | some r3 => exact ⟨.c3, by simpa [c1, c2, c3] using h⟩
        | none =>
          cases c4 : oldestOf d .c4 with
          | some r4 => exact ⟨.c4, by simpa [c1, c2, c3, c4] using h⟩
          | none => exact ⟨.c5, by simpa [c1, c2, c3, c4] using h⟩

/-- A grant issues an eligible request under a free tag, or does nothing. -/
theorem tryArbiterGrant_cases {t : MemTag} {d d' : Device} (h : tryArbiterGrant t d = some d') :
    ∃ r, eligible d r = true ∧ tagFree d t = true ∧ d' = issue t r d := by
  unfold tryArbiterGrant at h
  split at h
  next r choice =>
    split at h
    next free =>
      obtain ⟨c, oldest⟩ := arbiterChoice_oldest choice
      exact ⟨r, eligible_of_oldestOf oldest, free, (Option.some.inj h).symm⟩
    next => cases h
  next => cases h

/-- What a grant's owner is told changes no more than the request's state and the head-line write position. -/
theorem granted_eq (r : PortRequest) (d : Device) : granted r d = { d with
    path := { d.path with requests := (granted r d).path.requests }, command := (granted r d).command } := by
  unfold granted
  split <;> rfl

theorem issue_winsel (t : MemTag) (r : PortRequest) (d : Device) : (issue t r d).winsel = d.winsel := by
  unfold issue; rw [granted_eq]

theorem issue_now (t : MemTag) (r : PortRequest) (d : Device) : (issue t r d).now = d.now := by
  unfold issue; rw [granted_eq]

theorem issue_responses (t : MemTag) (r : PortRequest) (d : Device) : (issue t r d).responses = d.responses := by
  unfold issue; rw [granted_eq]

theorem issue_locks (t : MemTag) (r : PortRequest) (d : Device) : (issue t r d).path.locks = d.path.locks := by
  unfold issue; rw [granted_eq]

theorem issue_sent (t : MemTag) (r : PortRequest) (d : Device) :
    (issue t r d).sent = d.sent ++ [⟨t, r.write, r.line, r.mask, issueData d r⟩] := by
  unfold issue; rw [granted_eq]

theorem issue_age (t : MemTag) (r : PortRequest) (d : Device) : (issue t r d).arbiter.age = ageAfter d r := by
  unfold issue; rw [granted_eq]

theorem ageAfter_le {d : Device} (bounded : AgeBounded d) (r : PortRequest) : ageAfter d r ≤ Config.ageBound := by
  unfold ageAfter
  split
  · exact Nat.zero_le _
  · split
    · exact Nat.min_le_left _ _
    · exact bounded

/-- ARBITER_GRANT issues one eligible request under its tag before the end of the event, or nothing. -/
theorem exec_arbiterGrant_cases {t : MemTag} {s s' : State} (h : exec (.arbiterGrant t) s = .next s') :
    Keep s.dev s'.dev ∨ ∃ r, eligible s.dev r = true ∧ tagFree s.dev t = true ∧ Keep (issue t r s.dev) s'.dev := by
  rw [exec_arbiterGrant] at h
  cases e : tryArbiterGrant t s.dev with
  | none =>
    rw [innerEvent_idle e] at h
    cases h
    exact .inl (finish_keep (Keep.refl _))
  | some d =>
    obtain ⟨r, able, free, rfl⟩ := tryArbiterGrant_cases e
    rw [innerEvent_done e] at h
    cases h
    exact .inr ⟨r, able, free, finish_keep (Keep.refl _)⟩

/-- Settles O4: `exec_keep` for the other commands; a grant is `issue` before an end of event that `Keep` covers. -/
theorem onlyGrantsSend : Obligations.OnlyGrantsSend := by
  unfold Obligations.OnlyGrantsSend
  intro c s s' no_reset h
  by_cases grants : ∃ t, c = .arbiterGrant t
  · obtain ⟨t, rfl⟩ := grants
    have other : (∀ t', Instr.arbiterGrant t ≠ .arbiterGrant t') → s'.dev.sent = s.dev.sent ∧
        (tagsHeld s'.dev).Sublist (tagsHeld s.dev) := fun none_such => absurd rfl (none_such t)
    rcases exec_arbiterGrant_cases h with kept | ⟨r, -, -, kept⟩
    · exact ⟨kept.winsel, kept.responses, kept.now, other, fun _ _ => ⟨.inl kept.sent, fun u mem => .inl (kept.tags.mem mem)⟩⟩
    · refine ⟨kept.winsel.trans (issue_winsel t r _), issue_responses t r s.dev ▸ kept.responses,
        issue_now t r s.dev ▸ kept.now, other, fun t' e => ?_⟩
      obtain rfl : t = t' := Instr.arbiterGrant.inj e
      refine ⟨.inr ⟨_, kept.sent.trans (issue_sent t r _), rfl⟩, fun u mem => ?_⟩
      have among := kept.tags.mem mem
      rw [tagsHeld_issue, List.mem_append, List.mem_singleton] at among
      exact among.imp_right fun e => congrArg (·.1) e
  · have no_grant : ∀ t, c ≠ .arbiterGrant t := not_exists.mp grants
    have kept := exec_keep h no_reset no_grant
    exact ⟨kept.winsel, kept.responses, kept.now, fun _ => ⟨kept.sent, kept.tags⟩, fun t e => absurd e (no_grant t)⟩

/-! ## What a cold reset leaves -/

theorem tagPool_cold (w : BitVec 8) : TagPool (Device.cold w) :=
  ⟨List.nodup_nil, Nat.zero_le _, Nat.zero_le _⟩

theorem ageBounded_cold (w : BitVec 8) : AgeBounded (Device.cold w) := Nat.zero_le _

theorem lockTable_cold (w : BitVec 8) : LockTable (Device.cold w) :=
  ⟨List.Pairwise.nil, fun _ m => absurd m List.not_mem_nil⟩

theorem notifyRight_cold (w : BitVec 8) : NotifyRight (Device.cold w) := rfl

/-- Settles O8: the cold values as they are defined, and the invariants of them. -/
theorem coldResetValues : Obligations.ColdResetValues := by
  unfold Obligations.ColdResetValues
  exact ⟨⟨fun w s => rfl, rfl⟩, rfl, tagPool_cold 0, ageBounded_cold 0, lockTable_cold 0, notifyRight_cold 0⟩

/-! ## What every step keeps -/

/-- A property of the part that a cold reset establishes, an idle microsecond keeps, and what `Keep` names keeps from a device on
and from a grant on, is kept by every step. -/
theorem step_keeps {P : Device → Prop} {s s' : State} (start : P s.dev) (cold : ∀ w, P (Device.cold w))
    (idle : P { s.dev with now := s.dev.now + 1 }) (keep : ∀ {d d'}, P d → Keep d d' → P d')
    (grant : ∀ t r, eligible s.dev r = true → tagFree s.dev t = true → P (issue t r s.dev)) (h : step s = .next s') :
    P s'.dev := by
  unfold step at h
  split at h
  next => cases h; exact idle
  next c rest _ =>
    by_cases resets : ∃ w, c = .coldReset w
    · obtain ⟨w, rfl⟩ := resets
      cases h
      exact cold w
    · by_cases grants : ∃ t, c = .arbiterGrant t
      · obtain ⟨t, rfl⟩ := grants
        rcases exec_arbiterGrant_cases h with kept | ⟨r, able, free, kept⟩
        · exact keep start kept
        · exact keep (grant t r able free) kept
      · exact keep start (exec_keep (s := { s with pending := rest }) h (not_exists.mp resets) (not_exists.mp grants))

/-- Settles O5: a grant goes by the tag rule and bounds the age count; nothing else takes a tag or ages. -/
theorem arbiterBoundsKept : Obligations.ArbiterBoundsKept := by
  unfold Obligations.ArbiterBoundsKept
  intro s s' pool age h
  refine ⟨?_, ?_⟩
  · refine step_keeps (P := TagPool) pool tagPool_cold ⟨pool.distinct, pool.forwarded, pool.ownRequests⟩
      (fun p k => k.tagPool p) (fun t r able free => issue_tagPool pool free ?_) h
    simp only [eligible, Bool.and_eq_true] at able
    exact able.1
  · refine step_keeps (P := AgeBounded) age ageBounded_cold age (fun a k => k.age a) (fun t r _ _ => ?_) h
    rw [AgeBounded, issue_age]
    exact ageAfter_le age r

/-- Settles O6: a grant leaves lock state alone, and every operation on a line writes it in its one form (`Keep.locks`). -/
theorem lineLocksKept : Obligations.LineLocksKept := by
  unfold Obligations.LineLocksKept
  intro s s' locks h
  refine step_keeps (P := LockTable) locks lockTable_cold ⟨locks.ascending, locks.used⟩ (fun l k => k.locks l)
    (fun t r _ _ => ?_) h
  exact ⟨by rw [issue_locks]; exact locks.ascending, by rw [issue_locks]; exact locks.used⟩

/-- Every command's next state has NOTIFY_N right: it is evaluated at the end of an event (R161), and cold at a reset. -/
theorem exec_notifyRight {c : Instr} {s s' : State} (h : exec c s = .next s') : NotifyRight s'.dev := by
  cases c <;> cases h <;> rfl

/-- Settles O7: an idle microsecond changes nothing that R161's condition reads; every command evaluates it. -/
theorem notifyFollowsRule : Obligations.NotifyFollowsRule := by
  unfold Obligations.NotifyFollowsRule
  intro s s' right h
  unfold step at h
  split at h
  next => cases h; exact right
  next => exact exec_notifyRight h

end Sys2Proof.Proofs

/-! PROOF. The operations that the blocks share (R4, R20, R24, R32, R33, R45, R47, R143): each written out once as one update of the
part, and the statements `Obligations.SharedOperations` and `Obligations.NewestValidCopy` from these. -/
namespace Sys2Proof.Proofs
open Sys2Proof Sys2Proof.Machine

/-! ## An answer upstream -/

/-- A response to a request that stands in the table (R4, R20). -/
theorem respond_eq {t : ReqTag} {d : Device} {q : Request} (a : Response) (entry : d.path.requests.get t = some q) :
    respond t a d = { d with
      path := { d.path with requests := d.path.requests.set t none, waitMode := d.path.waitMode.filter (· != t) }
      responses := d.responses ++ [(t, a)]
      regions := match q.covering with
        | none => d.regions
        | some r => if q.state = .waitMode then d.regions else
            d.regions.set r { d.regions.get r with admitted := (d.regions.get r).admitted - 1 } } := by
  simp only [respond, entry]
  cases covering : q.covering with
  | none => rfl
  | some r =>
    by_cases waits : q.state = .waitMode
    · simp [waits]
    · simp [waits, Device.withRegion]

/-! ## Lines -/

/-- The lock of one line written. -/
theorem withLock_eq (d : Device) (line : Nat) (f : LineLock → LineLock) : d.withLock line f = { d with
    path := { d.path with locks := putLock ⟨line, (f (lockOf d line)).hold, (f (lockOf d line)).queue⟩ d.path.locks } } := rfl

theorem grantedAtOnce_iff {l : LineLock} {exclusive : Bool} :
    grantedAtOnce l exclusive = true ↔ l.queue = [] ∧ l.hold.takeable exclusive = true := by
  simp [grantedAtOnce]

/-- A request of the part's own whose line can be taken at its asking (R24). -/
theorem offer_granted {r : PortRequest} {d : Device} (alone : (lockOf d r.line).queue = [])
    (takeable : (lockOf d r.line).hold.takeable r.exclusive = true) : offer r d = { d with
      path := { d.path with locks := putLock ⟨r.line, (lockOf d r.line).hold.take r.exclusive, []⟩ d.path.locks }
      arbiter := { d.arbiter with waiting := d.arbiter.waiting ++ [r] } } := by
  rw [offer, if_pos (grantedAtOnce_iff.mpr ⟨alone, takeable⟩), takeLine, withLock_eq, alone]
  rfl

/-- A request of the part's own whose line cannot be taken at its asking (R24). -/
theorem offer_queued {r : PortRequest} {d : Device}
    (busy : ¬ ((lockOf d r.line).queue = [] ∧ (lockOf d r.line).hold.takeable r.exclusive = true)) : offer r d = { d with
      path := { d.path with
        locks := putLock ⟨r.line, (lockOf d r.line).hold, (lockOf d r.line).queue ++ [.own r]⟩ d.path.locks } } := by
  rw [offer, if_neg (mt grantedAtOnce_iff.mp busy), joinLine, withLock_eq]

/-- WRITEs and the READ of a descriptor update take their line as a write does (R74). -/
theorem exclusive_iff (r : PortRequest) : r.exclusive = true ↔ r.write = true ∨ ∃ st, r.job = .updateRead st := by
  rw [PortRequest.exclusive, Bool.or_eq_true]
  refine or_congr Iff.rfl ?_
  cases job : r.job <;> simp

/-! ## The head-line write -/

theorem tryHeadLineWriteIssue_asks {d : Device} (waits : d.command.headWaiting = true) (asked : d.command.headAsked = false)
    (outstanding : d.command.headOutstanding = false) : tryHeadLineWriteIssue d =
      some (offer (writeOf .headLine (headLineAddress d) 0) { d with command := { d.command with headAsked := true } }) := by
  have free : (d.command.headWaiting && !d.command.headAsked && !d.command.headOutstanding) = true := by
    simp [waits, asked, outstanding]
  rw [tryHeadLineWriteIssue, if_pos free]
  rfl

theorem tryHeadLineWriteIssue_none {d : Device}
    (busy : d.command.headWaiting = false ∨ d.command.headAsked = true ∨ d.command.headOutstanding = true) :
    tryHeadLineWriteIssue d = none := by
  rcases busy with h | h | h <;> simp [tryHeadLineWriteIssue, h]

/-- A head-line write offered while one has asked or is outstanding only waits (R143). -/
theorem offerHeadLine_waits {d : Device} (busy : d.command.headAsked = true ∨ d.command.headOutstanding = true) :
    offerHeadLine d = { d with command := { d.command with headWaiting := true } } := by
  have none_asks := tryHeadLineWriteIssue_none (d := { d with command := { d.command with headWaiting := true } }) (.inr busy)
  exact congrArg (fun o : Option Device => o.getD _) none_asks

/-- One offered with nothing in its way asks for its line (R143). -/
theorem offerHeadLine_asks {d : Device} (asked : d.command.headAsked = false)
    (outstanding : d.command.headOutstanding = false) : offerHeadLine d =
      offer (writeOf .headLine (headLineAddress d) 0)
        { d with command := { d.command with headWaiting := true, headAsked := true } } := by
  have asks := tryHeadLineWriteIssue_asks (d := { d with command := { d.command with headWaiting := true } }) rfl asked outstanding
  exact congrArg (fun o : Option Device => o.getD _) asks

/-- The mask of the part's own writes sets every byte. -/
theorem fullMask_eq : fullMask = BitVec.allOnes 64 := by decide

/-! ## Slots and filter entries -/

theorem freeSlot_queue_empty {k : SlotNo} {d : Device} (empty : d.capture.queue = []) :
    freeSlot k d = { d with capture := { d.capture with slots := d.capture.slots.set k none } } := by
  simp [freeSlot, trySlotQueueService, empty, Device.withSlot]

/-- A slot that becomes free while no device check is handled goes to the front of the slot queue (R47). -/
theorem freeSlot_served {k : SlotNo} {d : Device} {t : ReqTag} {rest : List ReqTag} (front : d.capture.queue = t :: rest)
    (state : d.check.state = .normal) : freeSlot k d = takeSlot t k
      { d with capture := { d.capture with slots := d.capture.slots.set k none, queue := rest } } := by
  simp [freeSlot, trySlotQueueService, front, Device.withSlot, normal, state]

/-- While one is handled it is left empty (R28, R165). -/
theorem freeSlot_handling {k : SlotNo} {d : Device} (state : d.check.state ≠ .normal) :
    freeSlot k d = { d with capture := { d.capture with slots := d.capture.slots.set k none } } := by
  cases queue : d.capture.queue <;> simp [freeSlot, trySlotQueueService, queue, Device.withSlot, normal, state]

/-- The slot that a removed entry names loses its link (Table 3-2). -/
def unlinkNamed (d : Device) (e : FilterEntry) : Device :=
  match e.state with
  | .pending k => d.mapSlot k fun c => { c with linked := false }
  | .captured => d

theorem removeEntries_eq_fold (p : FilterEntry → Bool) (d : Device) : removeEntries p d =
    ((d.capture.filter.filter p).foldl unlinkNamed d).withFilter (d.capture.filter.filter fun e => !p e) := rfl

theorem unlinkNamed_slots (d : Device) (e : FilterEntry) (k : SlotNo) : (unlinkNamed d e).capture.slots.get k =
    if e.state = .pending k then (d.capture.slots.get k).map fun c => { c with linked := false }
    else d.capture.slots.get k := by
  unfold unlinkNamed
  split
  next j named =>
    by_cases same : j = k
    · subst same
      simp [named, Device.mapSlot]
    · simp [named, same, Device.mapSlot, Table.get_set_of_ne]
  next named => simp [named]

theorem unlinkNamed_queue (d : Device) (e : FilterEntry) : (unlinkNamed d e).capture.queue = d.capture.queue := by
  unfold unlinkNamed
  split <;> rfl

theorem foldl_unlinkNamed_queue (es : List FilterEntry) (d : Device) :
    (es.foldl unlinkNamed d).capture.queue = d.capture.queue := by
  induction es generalizing d with
  | nil => rfl
  | cons e es ih => rw [List.foldl_cons, ih, unlinkNamed_queue]

/-- After a removal exactly the slots that a removed entry named have lost their link. -/
theorem foldl_unlinkNamed_slots (es : List FilterEntry) (d : Device) (k : SlotNo) :
    (es.foldl unlinkNamed d).capture.slots.get k =
      if ∃ e ∈ es, e.state = .pending k then (d.capture.slots.get k).map fun c => { c with linked := false }
      else d.capture.slots.get k := by
  induction es generalizing d with
  | nil => simp
  | cons e es ih =>
    rw [List.foldl_cons, ih, unlinkNamed_slots]
    by_cases here : e.state = .pending k <;> simp [here, Function.comp_def]

theorem removeEntries_filter (p : FilterEntry → Bool) (d : Device) :
    (removeEntries p d).capture.filter = d.capture.filter.filter fun e => !p e := rfl

theorem removeEntries_queue (p : FilterEntry → Bool) (d : Device) : (removeEntries p d).capture.queue = d.capture.queue :=
  foldl_unlinkNamed_queue _ d

theorem removeEntries_slots (p : FilterEntry → Bool) (d : Device) (k : SlotNo) :
    (removeEntries p d).capture.slots.get k =
      if ∃ e ∈ d.capture.filter, p e = true ∧ e.state = .pending k
      then (d.capture.slots.get k).map fun c => { c with linked := false }
      else d.capture.slots.get k := by
  have named := foldl_unlinkNamed_slots (d.capture.filter.filter p) d k
  simp only [List.mem_filter, and_assoc] at named
  exact named

/-! ## Requests withdrawn, abandoned, discarded later -/

theorem ownerless_eq (j : Job) : j.ownerless = match j with
    | .headLine | .lateHeadLine => .lateHeadLine
    | j => .discard j.portClass := by
  cases j <;> rfl

theorem ownerless_portClass (j : Job) : j.ownerless.portClass = j.portClass := by cases j <;> rfl

/-- A request after `p` has taken the owner from those it names. -/
def discarded (p : Job → Bool) (r : PortRequest) : PortRequest :=
  if p r.job = true then { r with job := r.job.ownerless } else r

theorem disown_eq (p : Job → Bool) (d : Device) : disown p d = { d with arbiter := { d.arbiter with
    issued := d.arbiter.issued.map fun i => { i with request := discarded p i.request } } } := by
  have same : (fun i : Issued => if p i.request.job = true then { i with request := i.request.ownerless } else i) =
      fun i => { i with request := discarded p i.request } := by
    funext i
    simp only [discarded]
    split <;> rfl
  rw [disown, same]
  rfl

theorem releaseUnlessCapture_eq (r : PortRequest) (d : Device) :
    (if r.job.ownsLine = true then releaseLine r.line d else d) = match r.job with
      | .capture _ => d
      | _ => releaseLine r.line d := by
  cases job : r.job <;> simp [Job.ownsLine]

theorem withdraw_eq_fold (p : Job → Bool) (d : Device) : withdraw p d =
    (d.arbiter.waiting.filter fun r => p r.job).foldl
      (fun e r => if r.job.ownsLine = true then releaseLine r.line e else e)
      { d with
        arbiter := { d.arbiter with waiting := d.arbiter.waiting.filter fun r => !p r.job }
        path := { d.path with locks := (d.path.locks.map fun l => { l with queue := l.queue.filter fun a => match a with
          | .own r => !p r.job
          | .upstream _ _ => true }).filter fun l => !(l.hold == .free && l.queue.isEmpty) } } := rfl

/-- An asker in a line's queue after `p` has taken the owner from the requests it names. -/
def discardedAsker (p : Job → Bool) : Asker → Asker
  | .own r => .own (discarded p r)
  | .upstream t w => .upstream t w

/-- The part with owners taken from the requests of the Arbiter that `p` names, and the askers of lines changed by `f`. -/
def discardLaterWith (p : Job → Bool) (d : Device) (f : Asker → Asker) : Device := { d with
  arbiter := { d.arbiter with
    waiting := d.arbiter.waiting.map (discarded p)
    issued := d.arbiter.issued.map fun i => { i with request := discarded p i.request } }
  path := { d.path with locks := d.path.locks.map fun l => { l with queue := l.queue.map f } } }

theorem discardLater_eq (p : Job → Bool) (d : Device) : discardLater p d = discardLaterWith p d (discardedAsker p) := by
  rw [discardLater, disown_eq]
  refine congrArg (discardLaterWith p d) (funext fun a => ?_)
  cases a with
  | upstream t w => rfl
  | own r =>
    simp only [discardedAsker, discarded]
    split <;> rfl

/-- Settles O10: each clause is the update that its operation is. -/
theorem sharedOperations : Obligations.SharedOperations := by
  unfold Obligations.SharedOperations
  refine ⟨⟨fun t a d q entry => respond_eq a entry, fun line d => rfl, fun t d => rfl, fun r d alone free => ?_,
      fun r d busy => ?_, fun r d n alone shared => ⟨fun reads => ?_, fun writes => ?_⟩, exclusive_iff,
      fun d waits busy => ?_, fun d busy => offerHeadLine_waits busy, fun d asked outstanding => ?_⟩,
    fun k d => ?_, fun p d => ?_, fun j => ⟨ownerless_eq j, ownerless_portClass j⟩, fun p d => ?_⟩
  · rw [offer_granted alone (by rw [free]; rfl), free]
    rfl
  · refine offer_queued fun able => ?_
    rcases busy with waiting | held
    · exact waiting able.1
    · simp [held, Hold.takeable] at able
  · rw [offer_granted alone (by rw [shared, reads]; rfl), shared, reads]
    rfl
  · rw [offer_queued (by simp [shared, writes, Hold.takeable]), alone, shared]
    rfl
  · rw [offerHeadLine_waits busy, ← waits]
  · rw [offerHeadLine_asks asked outstanding, writeOf, fullMask_eq]
    rfl
  · exact ⟨freeSlot_queue_empty, fun t rest front => ⟨fun state => freeSlot_served front state, freeSlot_handling⟩⟩
  · exact ⟨removeEntries_filter p d, removeEntries_queue p d, by rw [removeEntries_capture], removeEntries_slots p d⟩
  · refine ⟨?_, ?_, ?_⟩
    · rw [abandon, disown_eq, withdraw_arbiter]
      rfl
    · rw [withdraw_eq_fold]
      simp only [releaseUnlessCapture_eq] <;> rfl
    · rw [discardLater_eq]
      refine congrArg (discardLaterWith p d) (funext fun a => ?_)
      cases a <;> rfl

/-! ## The newest valid copy -/

/-- The difference of two generations, modulo 2 to the 32 (R123). -/
theorem generationNewer_iff (x y : BitVec 32) : generationNewer x y = true ↔
    1 ≤ (x.toNat + 2 ^ 32 - y.toNat) % 2 ^ 32 ∧ (x.toNat + 2 ^ 32 - y.toNat) % 2 ^ 32 ≤ 2147483647 := by
  have difference : (x - y).toNat = (x.toNat + 2 ^ 32 - y.toNat) % 2 ^ 32 := by
    rw [BitVec.toNat_sub]
    have := y.isLt
    congr 1
    omega
  rw [generationNewer, Bool.and_eq_true, decide_eq_true_eq, decide_eq_true_eq, difference]

/-- Settles O11: by which of the two copies are valid. -/
theorem newestValidCopy : Obligations.NewestValidCopy := by
  unfold Obligations.NewestValidCopy
  refine ⟨generationNewer_iff, fun a b => ?_⟩
  cases validA : copyValid a <;> cases validB : copyValid b <;> simp [newestValid, validA, validB]

end Sys2Proof.Proofs

/-! PROOF. A request from its acceptance to its line (R4, R18, R22, R24, R26, R37): admission, the watched words, the line asked for,
the lookup of a journaled write (R48), and the grant of a line's front. Statements `Obligations.RequestsAccepted`,
`WatchedWordsHandedOver`, `WaitingRequestAdmitted`, `LineAskedFor`, `FrontOfLineGranted`. -/
namespace Sys2Proof.Proofs
open Sys2Proof Sys2Proof.Machine

/-- Two effects of an event that leave the same part end in the same state. -/
theorem next_congr {s : State} {d e : Device} (same : d = e) :
    (Host.Outcome.next { s with dev := finish d } : Host.Outcome State Fault Refusal) = .next { s with dev := finish e } := by
  rw [same]

/-! ## The first index with a property -/

/-- The first index that has a property has it, and no lower one does. -/
theorem find_indices_eq_some_iff {n : Nat} {p : Fin n → Bool} {i : Fin n} :
    (indices n).find? p = some i ↔ p i = true ∧ ∀ j < i, p j = false := by
  rw [indices, List.find?_eq_some_iff_getElem]
  simp only [List.getElem_finRange, List.length_finRange, Bool.not_eq_true']
  constructor
  · rintro ⟨holds, k, hk, rfl, below⟩
    exact ⟨holds, fun j hj => below j.1 hj⟩
  · rintro ⟨holds, below⟩
    exact ⟨holds, i.1, i.2, rfl, fun j hj => below ⟨j, _⟩ hj⟩

theorem find_indices_eq_none_iff {n : Nat} {p : Fin n → Bool} : (indices n).find? p = none ↔ ∀ i, p i = false := by
  simp [indices, List.find?_eq_none]

/-- The region's range holds the line and the region decodes (R1, R3). -/
def Covers (d : Device) (line : Nat) (i : RegionNo) : Prop :=
  ((d.regions.get i).requested ≠ .off ∨ (d.regions.get i).effective ≠ .off) ∧ (d.regions.get i).base ≤ line
    ∧ line < (d.regions.get i).base + 2 ^ (d.regions.get i).exponent

theorem covers_iff {d : Device} {line : Nat} {i : RegionNo} :
    ((d.regions.get i).decodes && (d.regions.get i).holds line) = true ↔ Covers d line i := by
  simp [Covers, decodes_iff, Region.holds]

theorem covering_eq_some_iff {d : Device} {line : Nat} {r : RegionNo} :
    covering d line = some r ↔ Covers d line r ∧ ∀ i < r, ¬ Covers d line i := by
  rw [covering, find_indices_eq_some_iff]
  simp only [← covers_iff, Bool.not_eq_true]

theorem covering_eq_none_iff {d : Device} {line : Nat} : covering d line = none ↔ ∀ i, ¬ Covers d line i := by
  rw [covering, find_indices_eq_none_iff]
  simp only [← covers_iff, Bool.not_eq_true]

/-! ## A request that asks for its line -/

/-- The line cannot be taken at once: others wait for it, or its lock does not allow it (R24). -/
def Behind (l : LineLock) (write : Bool) : Prop := l.queue ≠ [] ∨ l.hold = .held ∨ (write = true ∧ l.hold ≠ .free)

theorem behind_iff {l : LineLock} {write : Bool} : Behind l write ↔ ¬ grantedAtOnce l write = true := by
  rw [grantedAtOnce_iff, Behind, not_and_or]
  refine or_congr Iff.rfl ?_
  cases l.hold <;> cases write <;> simp [Hold.takeable]

theorem not_behind_of_free {l : LineLock} (write : Bool) (alone : l.queue = []) (free : l.hold = .free) : ¬ Behind l write := by
  simp [Behind, alone, free]

section
variable {d : Device} {t : ReqTag} {q : Request}

theorem setRequestState_eq (entry : d.path.requests.get t = some q) (st : RequestState) : d.setRequestState t st = { d with
    path := { d.path with requests := d.path.requests.set t (some { q with state := st }) } } := by
  rw [Device.setRequestState, entry]
  rfl

/-- A request whose line is granted to it and that is not journaled waits in C5 as READY (R29). -/
theorem forward_eq (entry : d.path.requests.get t = some q) : forward t d = { d with
    path := { d.path with requests := d.path.requests.set t (some { q with state := .ready }) }
    arbiter := { d.arbiter with waiting := d.arbiter.waiting ++ [⟨.forward t, q.line, q.write, q.mask, q.data⟩] } } := by
  simp only [forward, entry, setRequestState_eq entry]
  rfl

theorem upstreamGranted_forward (entry : d.path.requests.get t = some q) (plain : q.stream = none) :
    upstreamGranted t d = { d with
      path := { d.path with requests := d.path.requests.set t (some { q with state := .ready }) }
      arbiter := { d.arbiter with waiting := d.arbiter.waiting ++ [⟨.forward t, q.line, q.write, q.mask, q.data⟩] } } := by
  simp only [upstreamGranted, entry, plain, Option.isSome_none, Bool.false_eq_true, if_false, forward_eq entry]

theorem upstreamGranted_capture (entry : d.path.requests.get t = some q) (journaled : q.stream ≠ none) :
    upstreamGranted t d = handToCapture t q.line d := by
  simp only [upstreamGranted, entry, Option.isSome_iff_ne_none, ne_eq, if_pos journaled]

theorem askUpstream_behind (entry : d.path.requests.get t = some q) (behind : Behind (lockOf d q.line) q.write) :
    askUpstream t q d = { d with path := { d.path with
      requests := d.path.requests.set t (some { q with state := .waitOrder })
      locks := putLock ⟨q.line, (lockOf d q.line).hold, (lockOf d q.line).queue ++ [.upstream t q.write]⟩ d.path.locks } } := by
  rw [askUpstream, if_neg (behind_iff.mp behind), setRequestState_eq entry, joinLine, withLock_eq]
  rfl

/-- The part with a line taken at once by a request of this kind. -/
def takenAtOnce (d : Device) (line : Nat) (write : Bool) : Device :=
  { d with path := { d.path with locks := putLock ⟨line, (lockOf d line).hold.take write, []⟩ d.path.locks } }

theorem askUpstream_granted (ahead : ¬ Behind (lockOf d q.line) q.write) :
    askUpstream t q d = upstreamGranted t (takenAtOnce d q.line q.write) := by
  have able : grantedAtOnce (lockOf d q.line) q.write = true := not_not.mp (mt behind_iff.mpr ahead)
  rw [askUpstream, if_pos able, takeLine, withLock_eq, (grantedAtOnce_iff.mp able).1]
  rfl

theorem askUpstream_forward (entry : d.path.requests.get t = some q) (ahead : ¬ Behind (lockOf d q.line) q.write)
    (plain : q.stream = none) : askUpstream t q d = { d with
      path := { d.path with
        requests := d.path.requests.set t (some { q with state := .ready })
        locks := putLock ⟨q.line, (lockOf d q.line).hold.take q.write, []⟩ d.path.locks }
      arbiter := { d.arbiter with waiting := d.arbiter.waiting ++ [⟨.forward t, q.line, q.write, q.mask, q.data⟩] } } := by
  rw [askUpstream_granted ahead]
  exact upstreamGranted_forward (d := takenAtOnce d q.line q.write) entry plain

theorem askUpstream_capture (entry : d.path.requests.get t = some q) (ahead : ¬ Behind (lockOf d q.line) q.write)
    (journaled : q.stream ≠ none) : askUpstream t q d = handToCapture t q.line (takenAtOnce d q.line q.write) := by
  rw [askUpstream_granted ahead]
  exact upstreamGranted_capture (d := takenAtOnce d q.line q.write) entry journaled

/-! ## The lookup of a journaled write (R48) -/

theorem handToCapture_captured {e : FilterEntry} (entry : d.path.requests.get t = some q)
    (found : filterEntry d q.line = some e) (captured : e.state = .captured) : handToCapture t q.line d = { d with
      path := { d.path with requests := d.path.requests.set t (some { q with state := .ready }) }
      arbiter := { d.arbiter with waiting := d.arbiter.waiting ++ [⟨.forward t, q.line, q.write, q.mask, q.data⟩] } } := by
  simp only [handToCapture, found, captured, forward_eq entry]

theorem handToCapture_pending {e : FilterEntry} {k : SlotNo} {c : Slot} (entry : d.path.requests.get t = some q)
    (found : filterEntry d q.line = some e) (pending : e.state = .pending k) (slot : d.capture.slots.get k = some c) :
    handToCapture t q.line d = { d with
      path := { d.path with requests := d.path.requests.set t (some { q with state := .capturing }) }
      capture := { d.capture with slots := d.capture.slots.set k (some { c with owner := some t }) } } := by
  simp only [handToCapture, found, pending, Device.mapSlot, slot]
  exact setRequestState_eq (d := d.withSlot k (some { c with owner := some t })) entry _

theorem freeSlotNo_eq_none (full : ∀ k, d.capture.slots.get k ≠ none) : freeSlotNo d = none :=
  find_indices_eq_none_iff.mpr fun k => by simpa [Option.isSome_iff_ne_none] using full k

theorem freeSlotNo_eq_some {k : SlotNo} (free : d.capture.slots.get k = none) (lowest : ∀ j < k, d.capture.slots.get j ≠ none) :
    freeSlotNo d = some k :=
  find_indices_eq_some_iff.mpr ⟨by simpa using free, fun j hj => by simpa [Option.isSome_iff_ne_none] using lowest j hj⟩

theorem handToCapture_waits (entry : d.path.requests.get t = some q) (absent : filterEntry d q.line = none)
    (full : ∀ k, d.capture.slots.get k ≠ none) : handToCapture t q.line d = { d with
      path := { d.path with requests := d.path.requests.set t (some { q with state := .waitSlot }) }
      capture := { d.capture with queue := d.capture.queue ++ [t] } } := by
  simp only [handToCapture, absent, freeSlotNo_eq_none full, setRequestState_eq entry]

theorem handToCapture_takes {k : SlotNo} (absent : filterEntry d q.line = none) (free : d.capture.slots.get k = none)
    (lowest : ∀ j < k, d.capture.slots.get j ≠ none) : handToCapture t q.line d = takeSlot t k d := by
  simp only [handToCapture, absent, freeSlotNo_eq_some free lowest]

/-! ## The slot queue -/

theorem trySlotQueueService_done {k : SlotNo} {rest : List ReqTag} (free : d.capture.slots.get k = none)
    (front : d.capture.queue = t :: rest) (state : d.check.state = .normal) :
    trySlotQueueService k d = some (takeSlot t k { d with capture := { d.capture with queue := rest } }) := by
  simp only [trySlotQueueService, free, front, if_pos (normal_iff.mpr state)]

theorem trySlotQueueService_handling {k : SlotNo} (state : d.check.state ≠ .normal) : trySlotQueueService k d = none := by
  unfold trySlotQueueService
  split
  next => exact if_neg (mt normal_iff.mp state)
  next => rfl

end

/-- Settles O19: a request that asks for its line, then the lookup of a journaled write, by the branches of `askUpstream` and of
`handToCapture`. -/
theorem lineAskedFor : Obligations.LineAskedFor := by
  unfold Obligations.LineAskedFor
  refine ⟨fun d t q entry => ⟨fun behind => askUpstream_behind entry behind,
    fun ahead plain => askUpstream_forward entry ahead plain,
    fun ahead journaled => askUpstream_capture entry ahead journaled⟩, fun d t q entry => ?_⟩
  refine ⟨fun e found captured => handToCapture_captured entry found captured,
    fun e k c found pending slot => handToCapture_pending entry found pending slot,
    fun absent full => handToCapture_waits entry absent full,
    fun k absent free lowest => handToCapture_takes absent free lowest, fun k rest s dev free front => ?_⟩
  subst dev
  exact ⟨fun state => innerEvent_done (trySlotQueueService_done free front state),
    fun state => innerEvent_idle (trySlotQueueService_handling state)⟩

/-! ## Admission -/

/-- The part with the entry of a request at its admission written, and the region table as the admission leaves it (R4, R22). -/
def enteredWith (d : Device) (t : ReqTag) (q : Request) (regions : Table Region 16) : Device := { d with
  regions := regions
  path := { d.path with
    requests := d.path.requests.set t (some q)
    waitMode := d.path.waitMode.filter (· != t)
    admissions := d.path.admissions + 1 } }

/-- The entry of a request as its admission writes it (Table 2-3). -/
def admittedEntry (d : Device) (q : Request) : Request :=
  { q with admission := some d.path.admissions, stream := admittedStream d q, state := .waitOrder }

section
variable {d : Device} {t : ReqTag} {q : Request}

theorem watchWindow_elsewhere {line : Nat} (mask : Mask) (data : Line) (n : Nat) (off : line ≠ windowBase d.winsel) :
    watchWindow line mask data n d = d := if_neg off

/-- The part that an admission leaves before the window watcher and the line. -/
def admitted (d : Device) (t : ReqTag) (q : Request) : Device :=
  enteredWith d t (admittedEntry d q) (countAdmission q.covering d).regions

/-- The entry and the counts of an admission, written together. -/
theorem countAdmission_entered (c : Option RegionNo) (e : Request) :
    { countAdmission c (d.withRequest t (some e)) with path := { (countAdmission c (d.withRequest t (some e))).path with
        admissions := d.path.admissions + 1
        waitMode := (countAdmission c (d.withRequest t (some e))).path.waitMode.filter (· != t) } } =
      enteredWith d t e (countAdmission c d).regions := by
  cases c <;> rfl

theorem admitRequest_eq (entry : d.path.requests.get t = some q) : admitRequest t d =
    if handlingMode d q.covering = .seal ∧ q.write = true then
      respond t .refused (if q.write then watchWindow q.line q.mask q.data d.path.admissions (admitted d t q) else admitted d t q)
    else askUpstream t (admittedEntry d q)
      (if q.write then watchWindow q.line q.mask q.data d.path.admissions (admitted d t q) else admitted d t q) := by
  simp only [admitRequest, entry]
  rw [countAdmission_entered]
  rfl

/-- An admission that the window watcher has nothing to do with. -/
theorem admitRequest_unwatched (entry : d.path.requests.get t = some q)
    (unwatched : q.write = false ∨ q.line ≠ windowBase d.winsel) : admitRequest t d =
      if handlingMode d q.covering = .seal ∧ q.write = true then respond t .refused (admitted d t q)
      else askUpstream t (admittedEntry d q) (admitted d t q) := by
  have quiet : (if q.write then watchWindow q.line q.mask q.data d.path.admissions (admitted d t q) else admitted d t q) =
      admitted d t q := by
    rcases unwatched with reads | off
    · simp [reads]
    · have same : windowBase (admitted d t q).winsel = windowBase d.winsel := rfl
      rw [watchWindow_elsewhere _ _ _ (same ▸ off), ite_self]
  rw [admitRequest_eq entry, quiet]

/-- The entry of an uncovered request at its admission. -/
theorem admitted_uncovered (uncovered : q.covering = none) : admitted d t q =
    enteredWith d t { q with admission := some d.path.admissions, stream := none, state := .waitOrder } d.regions := by
  simp only [admitted, admittedEntry, admittedStream, uncovered, countAdmission]

theorem admitRequest_uncovered (entry : d.path.requests.get t = some q)
    (unwatched : q.write = false ∨ q.line ≠ windowBase d.winsel) (uncovered : q.covering = none) : admitRequest t d =
      askUpstream t { q with admission := some d.path.admissions, stream := none, state := .waitOrder }
        (enteredWith d t { q with admission := some d.path.admissions, stream := none, state := .waitOrder } d.regions) := by
  rw [admitRequest_unwatched entry unwatched, admitted_uncovered uncovered, if_neg (by simp [uncovered, handlingMode])]
  simp only [admittedEntry, admittedStream, uncovered]

/-! ## Acceptance -/

/-- An uncovered request enters the table and is admitted at once. -/
theorem acceptRequest_uncovered {write : Bool} {line : Nat} {mask : Mask} {data : Line} (free : d.path.requests.get t = none)
    (uncovered : covering d line = none) (unwatched : write = false ∨ line ≠ windowBase d.winsel) :
    acceptRequest t write line mask data d =
      askUpstream t ⟨write, line, mask, data, none, none, some d.path.admissions, d.now, .waitOrder⟩
        (enteredWith d t ⟨write, line, mask, data, none, none, some d.path.admissions, d.now, .waitOrder⟩ d.regions) := by
  simp only [acceptRequest, free, uncovered, if_true]
  have admission := admitRequest_uncovered (t := t) (q := ⟨write, line, mask, data, none, none, none, d.now, .waitMode⟩)
    (d := d.withRequest t (some ⟨write, line, mask, data, none, none, none, d.now, .waitMode⟩)) (by simp) unwatched rfl
  rw [admission]
  simp [enteredWith]

/-- A covered request enters the table in WAIT_MODE (R4). -/
theorem acceptRequest_covered {write : Bool} {line : Nat} {mask : Mask} {data : Line} {r : RegionNo}
    (free : d.path.requests.get t = none) (covered : covering d line = some r) :
    acceptRequest t write line mask data d = { d with path := { d.path with
      requests := d.path.requests.set t (some ⟨write, line, mask, data, some r, none, none, d.now, .waitMode⟩)
      waitMode := d.path.waitMode ++ [t] } } := by
  simp only [acceptRequest, free, covered, reduceCtorEq, if_false]
  rfl

/-- An uncovered request whose line is free goes on to wait in C5. -/
theorem acceptRequest_ready {write : Bool} {line : Nat} {mask : Mask} {data : Line} (free : d.path.requests.get t = none)
    (uncovered : covering d line = none) (unwatched : write = false ∨ line ≠ windowBase d.winsel)
    (alone : (lockOf d line).queue = []) (idle : (lockOf d line).hold = .free) :
    acceptRequest t write line mask data d = { d with
      path := { d.path with
        requests := d.path.requests.set t
          (some ⟨write, line, mask, data, none, none, some d.path.admissions, d.now, .ready⟩)
        waitMode := d.path.waitMode.filter (· != t)
        admissions := d.path.admissions + 1
        locks := putLock ⟨line, if write then .held else .shared 1, []⟩ d.path.locks }
      arbiter := { d.arbiter with waiting := d.arbiter.waiting ++ [⟨.forward t, line, write, mask, data⟩] } } := by
  rw [acceptRequest_uncovered free uncovered unwatched]
  refine (askUpstream_forward (by simp [enteredWith]) (not_behind_of_free write alone idle) rfl).trans ?_
  have lock : lockOf (enteredWith d t ⟨write, line, mask, data, none, none, some d.path.admissions, d.now, .waitOrder⟩ d.regions)
      line = lockOf d line := rfl
  simp only [lock, idle]
  simp [enteredWith, Hold.take]

end

/-- Settles O13: acceptance with a free tag, by what covers the line, and what covering is. -/
theorem requestsAccepted : Obligations.RequestsAccepted := by
  unfold Obligations.RequestsAccepted
  refine ⟨fun s t line free uncovered => ⟨?_, fun mask data off => ?_⟩,
    fun s t line free uncovered alone idle => ⟨?_, fun mask data off => ?_⟩,
    fun s t line r free covered => ⟨?_, fun mask data => ?_⟩, fun d line => ⟨fun r => covering_eq_some_iff, covering_eq_none_iff⟩⟩
  · rw [exec_requesterRead, event_next, acceptRequest_uncovered free uncovered (.inl rfl)]
    rfl
  · rw [exec_requesterWrite, event_next, acceptRequest_uncovered free uncovered (.inr off)]
    rfl
  · rw [exec_requesterRead, event_next, acceptRequest_ready free uncovered (.inl rfl) alone idle]
    rfl
  · rw [exec_requesterWrite, event_next, acceptRequest_ready free uncovered (.inr off) alone idle]
    rfl
  · rw [exec_requesterRead, event_next, acceptRequest_covered free covered]
  · rw [exec_requesterWrite, event_next, acceptRequest_covered free covered]

/-! ## The watched words (R37) -/

/-- One watched word: handed to its owner whole, reported when covered in part, nothing when not covered. -/
theorem watchWord_eq (mask : Mask) (data : Line) (n : Nat) (d : Device) (i : Fin 5) : watchWord mask data n d i =
    if wordBytes mask i = 8 then judgeWord i (data.extractLsb' (64 * i.1) 64) n d
    else if wordBytes mask i = 0 then d
    else pushReport { kind := .windowMisuse, address := windowBase d.winsel + 8 * i.1, first := wordBytes mask i } d := by
  have word : BitVec.ofNat 64 (bytesAt data (8 * i.1) 8) = data.extractLsb' (64 * i.1) 64 := by
    have run := bytesAt_extract data (8 * i.1) 8
    have start : 8 * (8 * i.1) = 64 * i.1 := by omega
    rwa [start] at run
  rw [watchWord, word]

/-- The five words in ascending offset. -/
theorem watchWindow_first {line : Nat} {mask : Mask} {data : Line} {n : Nat} {d : Device} (first : line = windowBase d.winsel) :
    watchWindow line mask data n d = watchWord mask data n (watchWord mask data n (watchWord mask data n
      (watchWord mask data n (watchWord mask data n d 0) 1) 2) 3) 4 := if_pos first

/-- Settles O15: the admission of an uncovered WRITE to the window's first line, with the five words judged in their order. -/
theorem watchedWordsHandedOver : Obligations.WatchedWordsHandedOver := by
  unfold Obligations.WatchedWordsHandedOver
  refine ⟨windowBase_eq, fun s t mask data free uncovered => ?_⟩
  intro line covered watched q admitted
  have accepted : acceptRequest t true (windowBase s.dev.winsel) mask data s.dev =
      admitRequest t (s.dev.withRequest t
        (some ⟨true, windowBase s.dev.winsel, mask, data, none, none, none, s.dev.now, .waitMode⟩)) := by
    simp only [acceptRequest, free, uncovered, if_true]
  rw [exec_requesterWrite, event_next, accepted, admitRequest_eq
    (q := ⟨true, windowBase s.dev.winsel, mask, data, none, none, none, s.dev.now, .waitMode⟩) (by simp),
    admitted_uncovered rfl]
  simp only [handlingMode, reduceCtorEq, false_and, if_false, if_true, Device.withRequest_path, Device.withRequest_regions]
  rw [watchWindow_first]
  · simp only [watchWord_eq, enteredWith, Table.set_set, Device.withRequest_path]
    rfl
  · rfl

/-! ## A waiting request -/

section
variable {d : Device} {t : ReqTag} {q : Request} {r : RegionNo}

theorem not_decodes_iff {e : Region} : e.decodes = false ↔ e.requested = .off ∧ e.effective = .off := by
  rw [← Bool.not_eq_true, decodes_iff, not_or, not_not, not_not]

/-- A region that neither admits nor has stopped decoding keeps its requests waiting, and so does a device check's handling. -/
theorem tryRequestAdmission_waits (decodes : (d.regions.get r).decodes = true)
    (held : ((d.regions.get r).admits && normal d) = false) : tryRequestAdmission r d = none := by
  unfold tryRequestAdmission
  split
  next => rfl
  next => simp [decodes, held]

theorem tryRequestAdmission_covered (oldest : oldestWaiting d r = some t) (decodes : (d.regions.get r).decodes = true)
    (able : ((d.regions.get r).admits && normal d) = true) : tryRequestAdmission r d = some (admitRequest t d) := by
  simp [tryRequestAdmission, oldest, decodes, able]

theorem tryRequestAdmission_uncovered (oldest : oldestWaiting d r = some t) (entry : d.path.requests.get t = some q)
    (stopped : (d.regions.get r).decodes = false) : tryRequestAdmission r d =
      some (admitRequest t (d.withRequest t (some { q with covering := none }))) := by
  simp [tryRequestAdmission, oldest, stopped, entry]

theorem admits_iff : ((d.regions.get r).admits && normal d) = true ↔ (d.regions.get r).change = .none
    ∧ (d.regions.get r).degrading = false ∧ (d.regions.get r).effective ≠ .hold ∧ d.check.state = .normal := by
  simp [Region.admits, normal_iff, and_assoc]

/-- The part that the admission of a covered request leaves before its line. -/
theorem admitted_covered (covered : q.covering = some r) : admitted d t q = enteredWith d t (admittedEntry d q)
    (d.regions.set r { d.regions.get r with admitted := (d.regions.get r).admitted + 1 }) := by
  simp only [admitted, covered, countAdmission]
  rfl

theorem admittedEntry_covered (covered : q.covering = some r) : admittedEntry d q = { q with
    admission := some d.path.admissions
    stream := if q.write = true ∧ (d.regions.get r).effective = .journal then (d.regions.get r).stream else none
    state := .waitOrder } := by
  simp [admittedEntry, admittedStream, covered]

end

/-- Settles O18: the admission of the oldest waiting request, by what its region does. -/
theorem waitingRequestAdmitted : Obligations.WaitingRequestAdmitted := by
  unfold Obligations.WaitingRequestAdmitted
  intro s r t q e oldest entry covered region entered
  subst region
  refine ⟨fun requested effective unwatched => ?_, fun decodes held => ?_,
    fun decodes change degrading hold state => ?_⟩
  · have step := tryRequestAdmission_uncovered oldest entry (not_decodes_iff.mpr ⟨requested, effective⟩)
    rw [admitRequest_uncovered (q := { q with covering := none })
      (d := s.dev.withRequest t (some { q with covering := none })) (by simp) unwatched rfl] at step
    rw [exec_requestAdmission, innerEvent_done step]
    simp [enteredWith, entered]
  · refine innerEvent_idle (tryRequestAdmission_waits (decodes_iff.mpr decodes) (Bool.eq_false_iff.mpr fun able => ?_))
    obtain ⟨change, degrading, hold, state⟩ := admits_iff.mp able
    rcases held with h | h | h | h
    · exact h change
    · simp [degrading] at h
    · exact hold h
    · exact h state
  · have step := tryRequestAdmission_covered oldest (decodes_iff.mpr decodes) (admits_iff.mpr ⟨change, degrading, hold, state⟩)
    have mode : handlingMode s.dev q.covering = (s.dev.regions.get r).effective := by rw [covered]; rfl
    have asks (unwatched : q.write = false ∨ q.line ≠ windowBase s.dev.winsel)
        (open_ : ¬ ((s.dev.regions.get r).effective = .seal ∧ q.write = true)) :
        tryRequestAdmission r s.dev = some (askUpstream t (admittedEntry s.dev q) (enteredWith s.dev t (admittedEntry s.dev q)
          (s.dev.regions.set r { s.dev.regions.get r with admitted := (s.dev.regions.get r).admitted + 1 }))) := by
      rw [step, admitRequest_unwatched entry unwatched, mode, if_neg open_, admitted_covered covered]
    refine ⟨fun unwatched => ?_, fun reads alone free => ?_, fun writes sealed off => ?_⟩
    · rw [exec_requestAdmission, innerEvent_done (asks (unwatched.imp_right (·.1)) ?_), admittedEntry_covered covered]
      · rfl
      · rintro ⟨sealed, writes⟩
        rcases unwatched with reads | ⟨-, other⟩
        · simp [writes] at reads
        · exact other sealed
    · rw [exec_requestAdmission, innerEvent_done (asks (.inl reads) (by simp [reads]))]
      have plain : (admittedEntry s.dev q).stream = none := by simp [admittedEntry_covered covered, reads]
      refine next_congr ((askUpstream_forward (q := admittedEntry s.dev q)
        (d := enteredWith s.dev t (admittedEntry s.dev q) _) ?_ (not_behind_of_free _ alone free)
        plain).trans ?_)
      · exact Table.get_set _ _ _
      have lock (q' : Request) (regions : Table Region 16) : lockOf (enteredWith s.dev t q' regions) q.line =
        lockOf s.dev q.line := rfl
      simp only [admittedEntry_covered covered, reads, lock, free]
      simp [enteredWith, Hold.take]
    · rw [admitRequest_unwatched entry (.inr off), mode, if_pos ⟨sealed, writes⟩, admitted_covered covered] at step
      rw [exec_requestAdmission, innerEvent_done step]
      refine next_congr ((respond_eq (q := admittedEntry s.dev q) _ (by simp [enteredWith])).trans ?_)
      have same : (admittedEntry s.dev q).covering = some r := covered
      have waits : (admittedEntry s.dev q).state ≠ .waitMode := by simp [admittedEntry]
      simp only [same, if_neg waits, enteredWith, Table.set_set, Table.get_set, Nat.add_sub_cancel,
        List.filter_filter, Bool.and_self]
      congr 1
      exact Table.set_get_self _ _

/-! ## The front of a line's queue -/

theorem takeable_iff {h : Hold} {exclusive : Bool} :
    h.takeable exclusive = true ↔ h = .free ∨ (exclusive = false ∧ h ≠ .held) := by
  cases h <;> simp [Hold.takeable]

section
variable {d : Device} {line : Nat} {rest : List Asker}

theorem tryLineGrant_empty (empty : (lockOf d line).queue = []) : tryLineGrant line d = none := by
  simp [tryLineGrant, empty]

/-- The part with the front of a line's queue gone from it and the lock taken by it. -/
def frontTaken (d : Device) (line : Nat) (exclusive : Bool) (rest : List Asker) : Device :=
  { d with path := { d.path with locks := putLock ⟨line, (lockOf d line).hold.take exclusive, rest⟩ d.path.locks } }

theorem tryLineGrant_closed {a : Asker} (front : (lockOf d line).queue = a :: rest)
    (closed : ¬ ((lockOf d line).hold.takeable a.exclusive && !a.heldBack d) = true) : tryLineGrant line d = none := by
  simp only [tryLineGrant, front, if_neg closed]

theorem tryLineGrant_own {x : PortRequest} (front : (lockOf d line).queue = .own x :: rest)
    (able : (lockOf d line).hold.takeable x.exclusive = true) :
    tryLineGrant line d = some (enterClass x (frontTaken d line x.exclusive rest)) := by
  have opens : ((lockOf d line).hold.takeable (Asker.own x).exclusive && !(Asker.own x).heldBack d) = true := by
    simp [Asker.exclusive, Asker.heldBack, able]
  simp only [tryLineGrant, front, if_pos opens]
  rfl

theorem tryLineGrant_upstream {t : ReqTag} {w : Bool} (front : (lockOf d line).queue = .upstream t w :: rest)
    (able : (lockOf d line).hold.takeable w = true) (passes : (Asker.upstream t w).heldBack d = false) :
    tryLineGrant line d = some (upstreamGranted t (frontTaken d line w rest)) := by
  have opens : ((lockOf d line).hold.takeable (Asker.upstream t w).exclusive && !(Asker.upstream t w).heldBack d) = true := by
    simp [Asker.exclusive, passes, able]
  simp only [tryLineGrant, front, if_pos opens]
  rfl

/-- An upstream request of a covered line is held back while a device check is handled (R28, R165). -/
theorem heldBack_eq_false_iff {t : ReqTag} {w : Bool} {q : Request} (entry : d.path.requests.get t = some q) :
    (Asker.upstream t w).heldBack d = false ↔ d.check.state = .normal ∨ q.covering = none := by
  cases covered : q.covering <;> simp [Asker.heldBack, entry, covered, normal]

end

/-- Settles O21: the grant of a line's front, by who stands there; a failed check code comes after it. -/
theorem frontOfLineGranted : Obligations.FrontOfLineGranted := by
  unfold Obligations.FrontOfLineGranted
  intro s line rest failed checked l open_ taken grants
  have done {d : Device} (step : tryLineGrant line s.dev = some d) : grants d := by
    show exec (.lineGrant line failed) s = _
    rw [exec_lineGrant, readingEvent, event_next, step]
    cases failed <;> rfl
  have idle (step : tryLineGrant line s.dev = none) : grants s.dev := by
    show exec (.lineGrant line failed) s = _
    rw [exec_lineGrant, readingEvent, event_next, step]
    cases failed <;> rfl
  refine ⟨fun empty => idle (tryLineGrant_empty empty), fun x front => ⟨fun able => ?_, fun closed => ?_⟩,
    fun t w q front entry => ⟨fun closed => ?_, fun state covered => ?_,
      fun able passes => ⟨fun plain => ?_, fun st journaled => ?_⟩⟩⟩
  · exact done (tryLineGrant_own front (takeable_iff.mpr able))
  · refine idle (tryLineGrant_closed front fun opens => closed (takeable_iff.mp ?_))
    rw [Bool.and_eq_true] at opens
    exact opens.1
  · refine idle (tryLineGrant_closed front fun opens => closed (takeable_iff.mp ?_))
    rw [Bool.and_eq_true] at opens
    exact opens.1
  · refine idle (tryLineGrant_closed front fun opens => ?_)
    rw [Bool.and_eq_true, Bool.not_eq_true', heldBack_eq_false_iff entry] at opens
    exact opens.2.elim state covered
  · refine done ((tryLineGrant_upstream front (takeable_iff.mpr able) ((heldBack_eq_false_iff entry).mpr passes)).trans ?_)
    exact congrArg some (upstreamGranted_forward (d := frontTaken s.dev line w rest) entry plain)
  · refine done ((tryLineGrant_upstream front (takeable_iff.mpr able) ((heldBack_eq_false_iff entry).mpr passes)).trans ?_)
    exact congrArg some (upstreamGranted_capture (d := frontTaken s.dev line w rest) entry (by simp [journaled]))

end Sys2Proof.Proofs

/-! PROOF. The effective mode's changes at an event (R7, R16), and the Arbiter's grants (R32 to R35). Statements
`Obligations.PendingChangeApplied` and `TagGranted`. -/
namespace Sys2Proof.Proofs
open Sys2Proof Sys2Proof.Machine

/-! ## When a change is applied (R6, R7, R16) -/

/-- The region's stream serves JOURNAL: it is bound to one that is ACTIVE or EXHAUSTED (R6). -/
def Serving (d : Device) (e : Region) : Prop :=
  ∃ st, e.stream = some st ∧ ((d.streams.get st).state = .active ∨ (d.streams.get st).state = .exhausted)

theorem available_iff {d : Device} {e : Region} {m : Mode} : available d e m = true ↔ (m = .journal → Serving d e) := by
  cases m with
  | journal => cases stream : e.stream <;> simp [available, stream, Serving]
  | _ => simp [available]

theorem changeReady_iff {d : Device} {e : Region} : changeReady d e = true ↔
    e.change ≠ .none ∧ e.admitted = 0 ∧ (e.requested = .journal → Serving d e) ∧ e.degrading = false := by
  simp [changeReady, available_iff, and_assoc]

theorem returnsToJournal_iff {d : Device} {e : Region} : returnsToJournal d e = true ↔
    e.requested = .journal ∧ e.effective ≠ .journal ∧ e.change = .none ∧ e.degrading = false ∧ Serving d e := by
  simp [returnsToJournal, available_iff, and_assoc]

theorem tryModeChangeApplied_ready {d : Device} {r : RegionNo} (ready : changeReady d (d.regions.get r) = true) :
    tryModeChangeApplied r d = some (applyChange r d) := if_pos ready

theorem tryModeChangeApplied_unready {d : Device} {r : RegionNo} (unready : ¬ changeReady d (d.regions.get r) = true) :
    tryModeChangeApplied r d = none := if_neg unready

/-- The effect of an applied change (R7, R8): the region's entry, the report, and the filter entries of a region that leaves
JOURNAL. -/
theorem applyChange_eq {d : Device} {r : RegionNo} {e : Region} (region : d.regions.get r = e) : applyChange r d =
    if e.effective = .journal ∧ e.requested ≠ .journal then
      removeEntries (fun x => x.region == r) (reportReached r e.change e.requested e.effective
        { d with regions := d.regions.set r { e with effective := e.requested, change := .none } })
    else reportReached r e.change e.requested e.effective
        { d with regions := d.regions.set r { e with effective := e.requested, change := .none } } := by
  subst region
  unfold applyChange leaveJournal
  by_cases left : (d.regions.get r).effective = .journal
  · by_cases stays : (d.regions.get r).requested = .journal <;> simp [left, stays, Device.withRegion]
  · simp [left, Device.withRegion]

theorem reportReached_tagged (r : RegionNo) (tag : BitVec 16) (reached left : Mode) (d : Device) :
    reportReached r (.tagged tag) reached left d = pushReport (reachedReport d r tag reached left) d := rfl

/-! ## The return to JOURNAL -/

section
variable {d : Device} {r : RegionNo} {e : Region}

/-- The change of a region that returns to JOURNAL, with no pending tag to supersede (R13, R16). -/
theorem tryReturn_eq (region : d.regions.get r = e) (returns : returnsToJournal d e = true) : tryReturn r d =
    some (testChange r { d with regions := d.regions.set r { e with change := .internal } }) := by
  subst region
  obtain ⟨requested, effective, change, -, -⟩ := returnsToJournal_iff.mp returns
  have kept : supersede r internalCode d = d := by simp [supersede, change]
  have entry : { d.regions.get r with requested := .journal, change := .internal } =
      { d.regions.get r with change := .internal } := by rw [← requested]
  rw [tryReturn, if_pos returns, internalChange, kept, if_neg (Ne.symm effective), Device.withRegion]
  exact congrArg (fun x => some (testChange r { d with regions := d.regions.set r x })) entry

theorem tryReturn_applied (region : d.regions.get r = e) (returns : returnsToJournal d e = true) (alone : e.admitted = 0) :
    tryReturn r d = some { d with regions := d.regions.set r { e with effective := .journal } } := by
  obtain ⟨requested, effective, change, degrading, serving⟩ := returnsToJournal_iff.mp returns
  have ready : changeReady { d with regions := d.regions.set r { e with change := .internal } }
      ((d.regions.set r { e with change := .internal }).get r) = true := by
    rw [Table.get_set]
    exact changeReady_iff.mpr ⟨by simp, alone, fun _ => serving, degrading⟩
  have entry : { e with effective := e.requested, change := .none } = { e with effective := .journal } := by
    rw [requested, ← change]
  rw [tryReturn_eq region returns, testChange, tryModeChangeApplied_ready ready, applyChange_eq (Table.get_set _ _ _)]
  simp only [effective, false_and, if_false, reportReached, Table.set_set, Option.getD_some, entry]

theorem tryReturn_pending (region : d.regions.get r = e) (returns : returnsToJournal d e = true) (busy : e.admitted ≠ 0) :
    tryReturn r d = some { d with regions := d.regions.set r { e with change := .internal } } := by
  have unready : ¬ changeReady { d with regions := d.regions.set r { e with change := .internal } }
      ((d.regions.set r { e with change := .internal }).get r) = true := by
    rw [Table.get_set]
    exact fun ready => busy (changeReady_iff.mp ready).2.1
  rw [tryReturn_eq region returns, testChange, tryModeChangeApplied_unready unready]
  rfl

/-! ## What an event at rest leaves -/

theorem pathStep_of_quiet (rest : quiet d = true) : pathStep d = none := by
  have inner : innerStep d = none := Option.isNone_iff_eq_none.mp rest
  rw [innerStep, Option.or_eq_none_iff] at inner
  exact inner.1

/-- At rest no change is left whose conditions hold. -/
theorem changeReady_of_quiet (rest : quiet d = true) (r : RegionNo) : changeReady d (d.regions.get r) = false := by
  have path := pathStep_of_quiet rest
  cases next : nextChange d with
  | none => exact find_indices_eq_none_iff.mp next r
  | some i =>
    have ready : changeReady d (d.regions.get i) = true := (find_indices_eq_some_iff.mp next).1
    simp [pathStep, next, tryModeChangeApplied_ready ready] at path

/-- Nor a region that returns to JOURNAL. -/
theorem returnsToJournal_of_quiet (rest : quiet d = true) (r : RegionNo) :
    returnsToJournal d (d.regions.get r) = false := by
  have path := pathStep_of_quiet rest
  have no_change : nextChange d = none := find_indices_eq_none_iff.mpr fun i => changeReady_of_quiet rest i
  cases next : nextReturn d with
  | none => exact find_indices_eq_none_iff.mp next r
  | some i =>
    have returns : returnsToJournal d (d.regions.get i) = true := (find_indices_eq_some_iff.mp next).1
    simp [pathStep, no_change, next, tryReturn_eq rfl returns] at path

end

/-- Settles O20: the application of a change by `applyChange_eq`, the return by its two outcomes, and the end of an event by what
its resting inner steps leave untrue. -/
theorem pendingChangeApplied : Obligations.PendingChangeApplied := by
  unfold Obligations.PendingChangeApplied
  refine ⟨fun s r e region change alone degrading serving => ?_, fun d r st => ?_, fun d r rest => ?_⟩
  · intro changed reported
    have ready : changeReady s.dev (s.dev.regions.get r) = true :=
      region ▸ changeReady_iff.mpr ⟨change, alone, serving, degrading⟩
    have report : reportReached r e.change e.requested e.effective changed = reported := by
      show _ = (match e.change with
        | .tagged tag => pushReport _ changed
        | _ => changed)
      cases e.change with
      | tagged tag => simp [reportReached_tagged, reachedReport, changed]
      | none => rfl
      | internal => rfl
    rw [exec_modeChangeApplied, innerEvent_done (tryModeChangeApplied_ready ready), applyChange_eq region, report]
  · intro e stream state requested degrading
    have serving : Serving d e := ⟨st, stream, state⟩
    refine ⟨fun effective change => ?_, fun rest => ⟨?_, ?_⟩⟩
    · have returns : returnsToJournal d e = true :=
        returnsToJournal_iff.mpr ⟨requested, effective, change, degrading, serving⟩
      exact ⟨fun alone => tryReturn_applied rfl returns alone, fun busy => tryReturn_pending rfl returns busy⟩
    · by_contra none_holds
      obtain ⟨effective, change⟩ := not_or.mp none_holds
      have returns := returnsToJournal_iff.mpr ⟨requested, effective, not_not.mp change, degrading, serving⟩
      rw [returnsToJournal_of_quiet rest r] at returns
      cases returns
    · by_contra none_holds
      obtain ⟨change, alone⟩ := not_or.mp none_holds
      have ready := changeReady_iff.mpr ⟨change, not_not.mp alone, fun _ => serving, degrading⟩
      rw [changeReady_of_quiet rest r] at ready
      cases ready
  · intro t e serving
    have unready : ¬ changeReady t e = true := Bool.eq_false_iff.mp (changeReady_of_quiet rest r)
    have stays : ¬ returnsToJournal t e = true := Bool.eq_false_iff.mp (returnsToJournal_of_quiet rest r)
    rw [changeReady_iff] at unready
    rw [returnsToJournal_iff] at stays
    have same : serving ↔ Serving t e := Iff.rfl
    refine ⟨fun change => ?_, fun requested effective => ?_⟩
    · by_contra none_holds
      simp only [not_or, not_not, same, Bool.not_eq_true, not_and] at none_holds
      obtain ⟨alone, degrading, serves⟩ := none_holds
      exact unready ⟨change, alone, serves, degrading⟩
    · by_contra none_holds
      simp only [not_or, not_not, same, Bool.not_eq_true] at none_holds
      obtain ⟨change, degrading, serves⟩ := none_holds
      exact stays ⟨requested, effective, change, degrading, serves⟩

/-! ## The Arbiter (R32 to R35) -/

theorem tagFree_iff {d : Device} {t : MemTag} : tagFree d t = true ↔ ∀ i ∈ d.arbiter.issued, i.tag ≠ t := by
  simp [tagFree]

theorem tryArbiterGrant_done {d : Device} {t : MemTag} {x : PortRequest} (choice : arbiterChoice d = some x)
    (free : ∀ i ∈ d.arbiter.issued, i.tag ≠ t) : tryArbiterGrant t d = some (issue t x d) := by
  simp only [tryArbiterGrant, choice, if_pos (tagFree_iff.mpr free)]

/-- The grant of a forwarded request (R29). -/
theorem issue_forward {d : Device} {t : MemTag} {x : PortRequest} {g : ReqTag} {q : Request} (job : x.job = .forward g)
    (entry : d.path.requests.get g = some q) : issue t x d = { d with
      path := { d.path with requests := d.path.requests.set g (some { q with state := .forwarded }) }
      arbiter := {
        waiting := d.arbiter.waiting.erase x
        issued := d.arbiter.issued ++ [⟨t, x, true, false, d.now⟩]
        age := 0 }
      sent := d.sent ++ [⟨t, x.write, x.line, x.mask, x.data⟩] } := by
  have data : issueData d x = x.data := by simp [issueData, job]
  have port : x.job.portClass = .c5 := by rw [job]; rfl
  have told (e : Device) : granted x e = e.setRequestState g .forwarded := by simp [granted, job]
  rw [issue, told, data, ageAfter, if_pos port, port]
  refine (setRequestState_eq (q := q) ?_ _).trans ?_
  · exact entry
  · rfl

/-- The grant of a request of the part's own whose data stand and whose owner is told nothing. -/
theorem issue_own {d : Device} {t : MemTag} {x : PortRequest} (own : ∀ g, x.job ≠ .forward g) (port : x.job.portClass ≠ .c5)
    (head : x.job ≠ .headLine) (closing : x.job ≠ .faultClosing) : issue t x d = { d with
      arbiter := {
        waiting := d.arbiter.waiting.erase x
        issued := d.arbiter.issued ++ [⟨t, x, false, false, d.now⟩]
        age := if (oldestOf d .c5).isSome = true then min 8 (d.arbiter.age + 1) else d.arbiter.age }
      sent := d.sent ++ [⟨t, x.write, x.line, x.mask, x.data⟩] } := by
  have data : issueData d x = x.data := by
    unfold issueData
    split <;> simp_all
  have told (e : Device) : granted x e = e := by
    unfold granted
    split <;> simp_all
  have internal : (x.job.portClass == .c5) = false := by simpa using port
  rw [issue, told, data, internal, ageAfter, if_neg port]
  rfl

theorem eligible_iff {d : Device} {x : PortRequest} : eligible d x = true ↔
    d.arbiter.issued.length < 64
    ∧ (x.job.portClass = .c5 → (d.arbiter.issued.filter (·.forwarded)).length < 48)
    ∧ (x.job.portClass ≠ .c5 → (d.arbiter.issued.filter fun i => !i.forwarded).length < 32)
    ∧ (d.check.state = .normal ∨ x.job.portClass = .c1
      ∨ ∃ t q, x.job = .forward t ∧ d.path.requests.get t = some q ∧ q.covering = none) := by
  have rule : tagRule d x.job.portClass = true ↔ d.arbiter.issued.length < 64
      ∧ (x.job.portClass = .c5 → (d.arbiter.issued.filter (·.forwarded)).length < 48)
      ∧ (x.job.portClass ≠ .c5 → (d.arbiter.issued.filter fun i => !i.forwarded).length < 32) := by
    by_cases port : x.job.portClass = .c5
    · simp [tagRule, port]
      exact fun _ => Iff.rfl
    · simp [tagRule, port]
      exact fun _ => Iff.rfl
  have opens : portOpen d x = true ↔ d.check.state = .normal ∨ x.job.portClass = .c1
      ∨ ∃ t q, x.job = .forward t ∧ d.path.requests.get t = some q ∧ q.covering = none := by
    rw [portOpen, Bool.or_eq_true, Bool.or_eq_true, normal_iff, beq_iff_eq, or_assoc]
    refine or_congr Iff.rfl (or_congr Iff.rfl ?_)
    cases job : x.job with
    | forward t => cases entry : d.path.requests.get t <;> simp [entry]
    | _ => simp
  rw [eligible, Bool.and_eq_true, rule, opens, and_assoc, and_assoc]

/-- The oldest eligible request of a class: none before it in its class is eligible (R33). -/
theorem oldestOf_split {d : Device} {c : PortClass} {x : PortRequest} (oldest : oldestOf d c = some x) :
    ∃ before after, d.arbiter.waiting = before ++ x :: after ∧ x.job.portClass = c ∧ eligible d x = true
      ∧ ∀ y ∈ before, y.job.portClass = c → eligible d y = false := by
  obtain ⟨holds, before, after, split, younger⟩ := List.find?_eq_some_iff_append.mp oldest
  simp only [Bool.and_eq_true, beq_iff_eq] at holds
  refine ⟨before, after, split, holds.1, holds.2, fun y mem port => ?_⟩
  have not_taken := younger y mem
  simpa [port] using not_taken

theorem arbiterChoice_aged {d : Device} {x : PortRequest} (age : d.arbiter.age = 8) (oldest : oldestOf d .c5 = some x) :
    arbiterChoice d = some x := by
  simp [arbiterChoice, age, oldest, Config.ageBound]

/-- Where age does not decide, the highest class with an eligible request gives it (R34). -/
theorem arbiterChoice_ranked {d : Device} (young : d.arbiter.age ≠ 8 ∨ oldestOf d .c5 = none) : arbiterChoice d =
    ((((oldestOf d .c1).or (oldestOf d .c2)).or (oldestOf d .c3)).or (oldestOf d .c4)).or (oldestOf d .c5) := by
  have undecided : ¬ (d.arbiter.age == Config.ageBound && (oldestOf d .c5).isSome) = true := by
    rcases young with age | empty
    · simp [Config.ageBound, age]
    · simp [empty]
  rw [arbiterChoice, if_neg undecided]
  cases oldestOf d .c1 <;> cases oldestOf d .c2 <;> cases oldestOf d .c3 <;> cases oldestOf d .c4 <;> rfl

/-- Settles O22: the grant by what is granted, the choice by age and rank, eligibility by its two rules. -/
theorem tagGranted : Obligations.TagGranted := by
  unfold Obligations.TagGranted
  refine ⟨fun s tag x choice free => ⟨fun t q job entry => ?_, fun own port head closing => ?_⟩, fun d =>
    ⟨fun age x => arbiterChoice_aged age, arbiterChoice_ranked, fun c x => oldestOf_split, fun x => eligible_iff⟩⟩
  · rw [exec_arbiterGrant, innerEvent_done (tryArbiterGrant_done choice free), issue_forward job entry]
  · rw [exec_arbiterGrant, innerEvent_done (tryArbiterGrant_done choice free), issue_own own port head closing]

end Sys2Proof.Proofs

/-! PROOF. The Capture Unit's slots (R44, R47, R49, R55, R57), the hold limit (R27, R28), the memory response limit (R30), and the
messages of the memory port (R29 to R31). Statements `Obligations.CaptureProceeds`, `HoldLimitExpires`, `ResponseLimitReached`,
`ForwardedRequestAnswered`. -/
namespace Sys2Proof.Proofs
open Sys2Proof Sys2Proof.Machine

/-! ## A slot is taken (R44, R47) -/

section
variable {d : Device} {t : ReqTag} {q : Request} {k : SlotNo} {st : StreamNo} {c : Slot}

/-- The slot and the request as the slot's taking writes them. -/
def slotTaken (d : Device) (t : ReqTag) (q : Request) (k : SlotNo) (c : Slot) : Device := { d with
  path := { d.path with requests := d.path.requests.set t (some { q with state := .capturing }) }
  capture := { d.capture with slots := d.capture.slots.set k (some c) } }

theorem takeSlot_eq (entry : d.path.requests.get t = some q) (journaled : q.stream = some st)
    (state : d.check.state = .normal) : takeSlot t k d =
      enterClass (readOf (.capture k) q.line) (enterFilter k (filledSlot d t q st) (slotTaken d t q k (filledSlot d t q st))) := by
  have written : (d.withSlot k (some (filledSlot d t q st))).setRequestState t .capturing =
      slotTaken d t q k (filledSlot d t q st) :=
    setRequestState_eq (d := d.withSlot k (some (filledSlot d t q st))) entry _
  have state_after : normal (enterFilter k (filledSlot d t q st) (slotTaken d t q k (filledSlot d t q st))) = true := by
    rw [normal_iff, (enterFilter_kept (StreamsKept.refl _) _ _).check]
    exact state
  simp only [takeSlot, entry, journaled, written, if_pos state_after]

theorem enterFilter_room (room : d.capture.filter.length < 2048) :
    enterFilter k c d = d.withFilter (insertEntry ⟨c.line, c.region, .pending k⟩ d.capture.filter) := if_pos room

theorem enterFilter_full_known (full : 2048 ≤ d.capture.filter.length) (known : (d.streams.get c.stream).saturated = true) :
    enterFilter k c d = d.withStream c.stream fun x => { x with saturated := true } := by
  have no_room : ¬ d.capture.filter.length < Config.filterEntries := Nat.not_lt.mpr full
  simp only [enterFilter, if_neg no_room, if_pos known]

/-- The FILTER_SATURATED report of a capture that finds the filter full (R44). -/
def saturatedReport (d : Device) (c : Slot) : Report :=
  { kind := .filterSaturated, stream := c.stream.1, region := c.region.1, epoch := c.epoch, address := c.line
    first := (d.capture.filter.filter fun e => (d.regions.get e.region).stream == some c.stream).length, second := 2048 }

theorem enterFilter_full_new (full : 2048 ≤ d.capture.filter.length) (new : (d.streams.get c.stream).saturated = false) :
    enterFilter k c d =
      pushReport (saturatedReport d c) (d.withStream c.stream fun x => { x with saturated := true }) := by
  have no_room : ¬ d.capture.filter.length < Config.filterEntries := Nat.not_lt.mpr full
  simp only [enterFilter, if_neg no_room, new, Bool.false_eq_true, if_false]
  rfl

/-! ## A capture read is answered (R49, R57) -/

theorem captureAnswered_image {line : Nat} (slot : d.capture.slots.get k = some c) (phase : c.phase = .reading) (image : Line) :
    captureAnswered k line (.data image) d = { d with
      capture := { d.capture with
        slots := d.capture.slots.set k (some { c with image := some image, phase := .waitingPosition }) }
      streams := d.streams.set c.stream { d.streams.get c.stream with
        positions := (d.streams.get c.stream).positions ++ [(k, c.epoch)] } } := by
  simp only [captureAnswered, slot, phase]
  rfl

theorem captureAnswered_error {line : Nat} (slot : d.capture.slots.get k = some c) (phase : c.phase = .reading) :
    captureAnswered k line .error d = captureFailure k c d := by
  simp only [captureAnswered, slot, phase]

theorem captureAnswered_cancelled {line : Nat} (a : MemAnswer) (slot : d.capture.slots.get k = some c)
    (phase : c.phase = .cancelled) : captureAnswered k line a d = freeSlot k (releaseLine line d) := by
  simp only [captureAnswered, slot, phase]

theorem removeSlotEntry_eq (k : SlotNo) (d : Device) : removeSlotEntry k d = removeEntries (fun e => e.state == .pending k) d :=
  rfl

/-- A capture read failure with an owner to tell (R57). -/
theorem captureFailure_owned (owner : c.owner = some t) : captureFailure k c d =
    let e := freeSlot k (removeEntries (fun e => e.state == .pending k) (releaseLine c.line (respond t .error d)))
    if e.check.state = .normal then
      pushReport { kind := .captureFailed, status := .failed, stream := c.stream.1, region := c.region.1, epoch := c.epoch,
                   address := c.line, first := t.1 } e
    else e := by
  simp only [captureFailure, answerOwner, owner, removeSlotEntry_eq, normal_iff]
  rfl

/-! ## A slot is cancelled (R55) -/

/-- A cancelled slot's owner answered RETRY, its line released. -/
theorem answerOwner_eq (a : Response) (c : Slot) (d : Device) : answerOwner c.owner c.line a d = match c.owner with
    | some t => releaseLine c.line (respond t a d)
    | none => d := by
  cases owner : c.owner <;> rfl

theorem captureIssued_iff : captureIssued d k = true ↔ ∃ i ∈ d.arbiter.issued, i.request.job = .capture k := by
  simp [captureIssued]

theorem cancelSlot_empty (empty : d.capture.slots.get k = none) : cancelSlot k d = d := by
  simp only [cancelSlot, empty]

theorem cancelSlot_waiting (slot : d.capture.slots.get k = some c) (phase : c.phase = .waitingPosition) : cancelSlot k d =
    freeSlot k (leavePositions k c.stream (removeSlotEntry k (answerOwner c.owner c.line .retry d))) := by
  simp only [cancelSlot, slot, phase]

theorem cancelSlot_unissued (slot : d.capture.slots.get k = some c) (phase : c.phase = .reading)
    (unissued : ¬ captureIssued d k = true) : cancelSlot k d =
      freeSlot k (withdraw (· == .capture k) (removeSlotEntry k (answerOwner c.owner c.line .retry d))) := by
  simp only [cancelSlot, slot, phase, if_neg unissued]

theorem cancelSlot_issued (slot : d.capture.slots.get k = some c) (phase : c.phase = .reading)
    (issued : captureIssued d k = true) : cancelSlot k d =
      (removeSlotEntry k (match c.owner with | some t => respond t .retry d | none => d)).withSlot k
        (some { c with owner := none, linked := false, phase := .cancelled }) := by
  simp only [cancelSlot, slot, phase, if_pos issued] <;> cases c.owner <;> rfl

theorem cancelSlot_other (slot : d.capture.slots.get k = some c) (placed : c.phase ≠ .waitingPosition)
    (read : c.phase ≠ .reading) : cancelSlot k d = d := by
  simp only [cancelSlot, slot]
  split <;> simp_all

end

/-- Settles O23: SLOT_QUEUE_SERVICE by the room in the filter, a capture read's answer by the slot's phase, and a cancelling by
phase and by whether the read is on the memory port. -/
theorem captureProceeds : Obligations.CaptureProceeds := by
  unfold Obligations.CaptureProceeds
  refine ⟨fun s k t rest q st r free front entry journaled covered state => ?_,
    fun s t r k c outstanding job reads slot => ?_, fun d k => ⟨cancelSlot_empty, fun c slot => ?_⟩⟩
  · intro x slot asked unlinked
    have filled : filledSlot { s.dev with capture := { s.dev.capture with queue := rest } } t q st =
        slot (decide (s.dev.capture.filter.length < 2048)) := by
      simp only [filledSlot, covered, Option.getD_some]
      rfl
    have served := trySlotQueueService_done free front state
    rw [takeSlot_eq (d := { s.dev with capture := { s.dev.capture with queue := rest } }) entry journaled state, filled] at served
    refine ⟨fun room => ?_, fun full known => ?_, fun full new => ?_⟩
    · rw [exec_slotQueueService, innerEvent_done served, enterFilter_room, decide_eq_true room]
      · rfl
      · exact room
    · have crowded : ¬ s.dev.capture.filter.length < 2048 := Nat.not_lt.mpr full
      rw [exec_slotQueueService, innerEvent_done served, enterFilter_full_known, decide_eq_false crowded]
      · rfl
      · exact full
      · exact known
    · have crowded : ¬ s.dev.capture.filter.length < 2048 := Nat.not_lt.mpr full
      rw [exec_slotQueueService, innerEvent_done served, enterFilter_full_new, decide_eq_false crowded]
      · rfl
      · exact full
      · exact new
  · intro d
    have answered (a : MemAnswer) (kind : wrongKind r a = false) :
        exec (.captureReadAnswer t a) s = .next { s with dev := finish (captureAnswered k r.line a d) } := by
      rw [exec_captureReadAnswer, event_next, memoryAnswer_kept outstanding kind (by rw [job]; rfl), tellJob, job]
    refine ⟨fun phase => ⟨fun image => ?_, fun g owner => ?_⟩, fun phase => ⟨fun image => ?_, ?_⟩⟩
    · rw [answered (.data image) reads, captureAnswered_image (d := d) slot phase]
    · rw [answered .error rfl, captureAnswered_error (d := d) slot phase, captureFailure_owned owner]
    · rw [answered (.data image) reads, captureAnswered_cancelled (d := d) _ slot phase]
    · rw [answered .error rfl, captureAnswered_cancelled (d := d) _ slot phase]
  · intro entryGone told released
    have retried : answerOwner c.owner c.line .retry d = released := answerOwner_eq .retry c d
    refine ⟨fun phase => ?_, fun phase unissued => ?_, fun phase issued => ?_, fun placed read => ?_⟩
    · rw [cancelSlot_waiting slot phase, retried]
      rfl
    · rw [cancelSlot_unissued slot phase fun issued => ?_, retried]
      · rfl
      · obtain ⟨i, mem, named⟩ := captureIssued_iff.mp issued
        exact unissued i mem named
    · rw [cancelSlot_issued slot phase (captureIssued_iff.mpr issued)]
      rfl
    · exact cancelSlot_other slot placed read

/-! ## The hold limit (R27, R28) -/

section
variable {d : Device} {t : ReqTag} {q : Request}

theorem forwarded_iff : q.forwarded = true ↔ q.state = .ready ∨ q.state = .forwarded := by
  simp [Request.forwarded]

theorem tryHoldLimitExpiry_none (entry : d.path.requests.get t = some q)
    (safe : q.state = .ready ∨ q.state = .forwarded ∨ d.command.holdLimit = none) : tryHoldLimitExpiry t d = none := by
  unfold tryHoldLimitExpiry holdLimitMicros
  cases limit : d.command.holdLimit with
  | none => simp [entry]
  | some k =>
    have gone : q.forwarded = true := forwarded_iff.mpr (by simpa [limit] using safe)
    simp [entry, gone]

theorem tryHoldLimitExpiry_done {limit : Nat} (entry : d.path.requests.get t = some q)
    (finite : d.command.holdLimit = some limit) (ready : q.state ≠ .ready) (forwarded : q.state ≠ .forwarded) :
    tryHoldLimitExpiry t d = some (expireRequest t { d with now := max d.now (q.holdStart + 2 ^ limit) }) := by
  have held : ¬ q.forwarded = true := fun gone => (forwarded_iff.mp gone).elim ready forwarded
  simp only [tryHoldLimitExpiry, holdLimitMicros, entry, finite, Option.map_some, if_neg held, reach]

theorem expireRequest_waitMode (entry : d.path.requests.get t = some q) (state : q.state = .waitMode) :
    expireRequest t d = respond t .retry d := by simp only [expireRequest, entry, state]

theorem expireRequest_waitOrder (entry : d.path.requests.get t = some q) (state : q.state = .waitOrder) :
    expireRequest t d = respond t .retry (leaveLine q.line t d) := by simp only [expireRequest, entry, state]

theorem expireRequest_waitSlot (entry : d.path.requests.get t = some q) (state : q.state = .waitSlot) :
    expireRequest t d = respond t .retry (releaseLine q.line (dropFromSlotQueue t d)) := by
  simp only [expireRequest, entry, state]

theorem unplaced_iff {c : Slot} : c.unplaced = true ↔ c.phase = .reading ∨ c.phase = .waitingPosition := by
  simp [Slot.unplaced]

theorem expireRequest_slotless (entry : d.path.requests.get t = some q) (state : q.state = .capturing)
    (slotless : slotOwnedBy d t = none) : expireRequest t d = respond t .retry (releaseLine q.line d) := by
  simp only [expireRequest, entry, state, slotless]

theorem expireRequest_unplaced {k : SlotNo} {c : Slot} (entry : d.path.requests.get t = some q) (state : q.state = .capturing)
    (owns : slotOwnedBy d t = some (k, c)) (unplaced : c.phase = .reading ∨ c.phase = .waitingPosition) :
    expireRequest t d = cancelSlot k d := by
  simp only [expireRequest, entry, state, owns, if_pos (unplaced_iff.mpr unplaced)]

/-- A slot that has its sequence becomes an orphan (R53). -/
theorem expireRequest_placed {k : SlotNo} {c : Slot} (entry : d.path.requests.get t = some q) (state : q.state = .capturing)
    (owns : slotOwnedBy d t = some (k, c)) (placed : ¬ (c.phase = .reading ∨ c.phase = .waitingPosition)) :
    expireRequest t d = respond t .retry (releaseLine q.line
      { d with capture := { d.capture with slots := d.capture.slots.set k (some { c with owner := none }) } }) := by
  simp only [expireRequest, entry, state, owns, if_neg (mt unplaced_iff.mp placed), Device.mapSlot,
    (slotOwnedBy_get owns).1]
  rfl

end

/-- Settles O24: whether the limit expires, and what it does to a request by the request's state. -/
theorem holdLimitExpires : Obligations.HoldLimitExpires := by
  unfold Obligations.HoldLimitExpires
  refine ⟨fun s t q entry => ⟨fun safe => ?_, fun limit finite ready forwarded => ?_⟩, fun d t q entry =>
    ⟨expireRequest_waitMode entry, expireRequest_waitOrder entry, expireRequest_waitSlot entry, fun state =>
      ⟨expireRequest_slotless entry state, fun k c owns =>
        ⟨expireRequest_unplaced entry state owns, fun read placed => ?_⟩⟩⟩⟩
  · rw [exec_holdLimitExpiry, innerEvent_idle (tryHoldLimitExpiry_none entry safe)]
  · rw [exec_holdLimitExpiry, innerEvent_done (tryHoldLimitExpiry_done entry finite ready forwarded)]
  · exact expireRequest_placed entry state owns fun unplaced => unplaced.elim read placed

/-! ## The memory response limit (R30) -/

/-- The part with an outstanding tag abandoned at its limit, which the clock has reached. -/
def tagAbandoned (d : Device) (t : MemTag) (i : Issued) : Device := { d with
  now := max d.now (i.grantedAt + 4000)
  arbiter := { d.arbiter with issued := d.arbiter.issued.map fun j =>
    if j.tag = t then { j with
      abandoned := true
      request := if j.forwarded = true then { j.request with job := j.request.job.ownerless } else j.request }
    else j }
  check := { d.check with holdSet := d.check.holdSet.filter (· != t) } }

section
variable {d : Device} {t : MemTag} {i : Issued}

theorem markAbandoned_reach (d : Device) (t : MemTag) (i : Issued) :
    markAbandoned t (reach (i.grantedAt + Config.responseLimit) d) = tagAbandoned d t i := rfl

theorem tryMemoryResponseLimit_again (issued : issuedAt d t = some i) (abandoned : i.abandoned = true) :
    tryMemoryResponseLimit t d = none := by
  simp only [tryMemoryResponseLimit, issued, if_pos abandoned]

theorem tryMemoryResponseLimit_eq (issued : issuedAt d t = some i) (outstanding : i.abandoned = false) :
    tryMemoryResponseLimit t d =
      if (answerForwarded i.request.job (tagAbandoned d t i)).check.state = .close ∧ i.request.job = .faultClosing then
        some (deviceClear (answerForwarded i.request.job (tagAbandoned d t i)))
      else some (deviceCheck .memoryTimeout .none (answerForwarded i.request.job (tagAbandoned d t i))) := by
  simp only [tryMemoryResponseLimit, issued, outstanding, Bool.false_eq_true, if_false, markAbandoned_reach]
  rfl

theorem answerForwarded_own {j : Job} (own : ∀ g, j ≠ .forward g) (d : Device) : answerForwarded j d = d := by
  cases j with
  | forward g => exact absurd rfl (own g)
  | _ => rfl

end

/-- Settles O25: an abandoned tag reaches no limit; of the others the forwarded requests are answered ERROR, and the closing line in
DEVICE_CLOSE is followed by the device clear. -/
theorem responseLimitReached : Obligations.ResponseLimitReached := by
  unfold Obligations.ResponseLimitReached
  intro s t i issued
  refine ⟨fun abandoned => ?_, fun outstanding => ?_⟩
  · rw [exec_memoryResponseLimit, readingEvent_none, event_next, tryMemoryResponseLimit_again issued abandoned]
    rfl
  · have reached {d : Device} (step : tryMemoryResponseLimit t s.dev = some d) :
        exec (.memoryResponseLimit ⟨t, none⟩) s = .next { s with dev := finish d } := by
      rw [exec_memoryResponseLimit, readingEvent_none, event_next, step]
      rfl
    have step := tryMemoryResponseLimit_eq issued outstanding
    refine ⟨fun g job => reached ?_, fun own other => reached ?_, fun state closing => reached ?_⟩
    · have open_ : ¬ i.request.job = .faultClosing := by simp [job]
      rw [step, if_neg (mt And.right open_), job]
      rfl
    · have open_ : ¬ (s.dev.check.state = .close ∧ i.request.job = .faultClosing) := fun both =>
        other.elim (fun state => state both.1) fun job => job both.2
      rw [step, answerForwarded_own own]
      exact if_neg open_
    · rw [step, answerForwarded_own (by simp [closing])]
      exact if_pos ⟨state, closing⟩

/-! ## Messages of the memory port (R29 to R31) -/

section
variable {d : Device} {t : MemTag} {i : Issued} {r : PortRequest}

/-- The answer to a forwarded request goes upstream (R29). -/
theorem memoryAnswer_forward {g : ReqTag} {a : MemAnswer} (outstanding : Outstanding d t r) (job : r.job = .forward g)
    (kind : wrongKind r a = false) : memoryAnswer t a d = respond g (upstreamResponse a) (returned t r d) := by
  rw [memoryAnswer_returned outstanding kind (by rw [job]; rfl), tellJob, job]

/-- The answer to a request whose owner has gone only frees tag and line. -/
theorem memoryAnswer_discard {c : PortClass} {a : MemAnswer} (outstanding : Outstanding d t r) (job : r.job = .discard c)
    (kind : wrongKind r a = false) : memoryAnswer t a d = returned t r d := by
  rw [memoryAnswer_returned outstanding kind (by rw [job]; rfl), tellJob, job]

theorem memoryAnswer_abandoned (a : MemAnswer) (issued : issuedAt d t = some i) (abandoned : i.abandoned = true)
    (capture : ∀ k, i.request.job ≠ .capture k) (head : i.request.job ≠ .headLine) (late : i.request.job ≠ .lateHeadLine) :
    memoryAnswer t a d = returned t i.request d := by
  have tag := issuedAt_tag issued
  have other : answerAbandoned i d = releaseLine i.request.line (freeTag i.tag d) := by
    unfold answerAbandoned
    dsimp only
    split
    next job => exact absurd job (capture _)
    next job => exact absurd job head
    next job => exact absurd job late
    next => rfl
  simp only [memoryAnswer, issued, if_pos abandoned, other, returned, tag]

theorem memoryAnswer_abandonedCapture {k : SlotNo} (a : MemAnswer) (issued : issuedAt d t = some i)
    (abandoned : i.abandoned = true) (job : i.request.job = .capture k) :
    memoryAnswer t a d = abandonedCaptureAnswered k i.request.line (freeTag t d) := by
  simp only [memoryAnswer, issued, if_pos abandoned, answerAbandoned, job, issuedAt_tag issued]

theorem abandonedCaptureAnswered_empty {k : SlotNo} {line : Nat} (empty : d.capture.slots.get k = none) :
    abandonedCaptureAnswered k line d = releaseLine line d := by
  simp only [abandonedCaptureAnswered, empty]

theorem abandonedCaptureAnswered_cancelled {k : SlotNo} {line : Nat} {c : Slot} (slot : d.capture.slots.get k = some c)
    (phase : c.phase = .cancelled) : abandonedCaptureAnswered k line d = freeSlot k (releaseLine line d) := by
  simp only [abandonedCaptureAnswered, slot, phase]

/-- The line of an abandoned capture read stays its write's while the slot has an owner (R25). -/
theorem abandonedCaptureAnswered_live {k : SlotNo} {line : Nat} {c : Slot} (slot : d.capture.slots.get k = some c)
    (phase : c.phase ≠ .cancelled) :
    abandonedCaptureAnswered k line d = if c.owner.isSome then d else releaseLine line d := by
  simp only [abandonedCaptureAnswered, slot]

/-- Every row of an answer is the event of the message it carries (log 5). -/
theorem exec_answerRow {s : State} (t : MemTag) (a : MemAnswer) {row : MemTag → MemAnswer → Instr}
    (mem : row ∈ [Instr.forwardedRequestAnswer, Instr.captureReadAnswer, Instr.recordLineAnswer, Instr.descriptorFetchAnswer,
      Instr.descriptorUpdateReadAnswer, Instr.descriptorUpdateWriteAnswer, Instr.anchorWriteLineAnswer,
      Instr.anchorReadAnswer, Instr.resumeDescriptorAnswer, Instr.scanReadAnswer, Instr.journalReadAnswer,
      Instr.restoreWriteAnswer, Instr.truncationDescriptorAnswer, Instr.commandFetchAnswer,
      Instr.faultRecordFirstLineAnswer, Instr.faultRecordClosingLineAnswer, Instr.abandonedTagAnswer,
      fun t => Instr.headLineWriteAnswer ⟨t, none⟩, fun t => Instr.reportWriteAnswer ⟨t, none⟩,
      fun t => Instr.strayResponse ⟨t, none⟩]) :
    exec (row t a) s = .next { s with dev := finish (memoryAnswer t a s.dev) } := by
  simp only [List.mem_cons, List.not_mem_nil, or_false] at mem
  rcases mem with rfl | rfl | rfl | rfl | rfl | rfl | rfl | rfl | rfl | rfl | rfl | rfl | rfl | rfl | rfl | rfl | rfl | rfl |
    rfl | rfl <;> rfl

theorem wrongKind_eq_false {a : MemAnswer} (done : a ≠ .done ∨ r.write = true) (data : (∀ l, a ≠ .data l) ∨ r.write = false) :
    wrongKind r a = false := by
  cases a with
  | data l => exact data.resolve_left fun other => other l rfl
  | done => simpa [wrongKind] using done
  | error => rfl

end

/-- Settles O27: a message of the memory port by what its tag carries. -/
theorem forwardedRequestAnswered : Obligations.ForwardedRequestAnswered := by
  unfold Obligations.ForwardedRequestAnswered
  refine ⟨fun s t r g outstanding job => ⟨fun l reads => ?_, fun writes => ?_, ?_⟩, fun s t a =>
    ⟨fun free => ?_, fun r outstanding => ⟨fun l writes => ?_, fun reads => ?_⟩,
      fun i issued abandoned capture head late => ?_, fun i k issued abandoned job => ?_,
      fun r c outstanding job done data row mem => ?_⟩⟩
  · rw [exec_forwardedRequestAnswer, event_next, memoryAnswer_forward (a := .data l) outstanding job reads, upstreamResponse]
  · rw [exec_forwardedRequestAnswer, event_next, memoryAnswer_forward outstanding job (by simp [wrongKind, writes]),
      upstreamResponse]
  · rw [exec_forwardedRequestAnswer, event_next, memoryAnswer_forward outstanding job rfl, upstreamResponse]
  · rw [exec_strayResponse, readingEvent_none, event_next, memoryAnswer_free a free]
  · rw [exec_strayResponse, readingEvent_none, event_next, memoryAnswer_wrongKind (a := .data l) outstanding writes]
  · rw [exec_strayResponse, readingEvent_none, event_next, memoryAnswer_wrongKind outstanding (by simp [wrongKind, reads])]
  · rw [exec_abandonedTagAnswer, event_next, memoryAnswer_abandoned a issued abandoned capture head late]
  · intro d answered
    have told {e : Device} (same : abandonedCaptureAnswered k i.request.line d = e) : answered e := by
      show exec (.abandonedTagAnswer t a) s = _
      rw [exec_abandonedTagAnswer, event_next, memoryAnswer_abandonedCapture a issued abandoned job, same]
    refine ⟨fun empty => told (abandonedCaptureAnswered_empty (d := d) empty), fun c slot => ⟨fun phase => ?_,
      fun phase owner => ?_, fun phase owner => ?_⟩⟩
    · exact told (abandonedCaptureAnswered_cancelled (d := d) slot phase)
    · exact told ((abandonedCaptureAnswered_live (d := d) slot phase).trans (by simp [owner]))
    · exact told ((abandonedCaptureAnswered_live (d := d) slot phase).trans (if_pos (Option.isSome_iff_ne_none.mpr owner)))
  · rw [exec_answerRow t a mem, memoryAnswer_discard outstanding job (wrongKind_eq_false done data)]

end Sys2Proof.Proofs

/-! PROOF. Which record comes next (R62, R93), the offers of anchor writes (R124) and forced retirement (R99). Statements
`Obligations.EpochBoundaryRule` and `FullHistoryMakesRoom`. -/
namespace Sys2Proof.Proofs
open Sys2Proof Sys2Proof.Machine

/-! ## The slots of a stream -/

theorem mem_slotsInUse {d : Device} {k : SlotNo} {c : Slot} :
    (k, c) ∈ slotsInUse d ↔ d.capture.slots.get k = some c := by
  refine ⟨slotsInUse_get, fun slot => ?_⟩
  simp only [slotsInUse, indices, List.mem_filterMap, List.mem_finRange, true_and]
  exact ⟨k, by rw [slot]; rfl⟩

theorem mem_slotsOf {d : Device} {st : StreamNo} {k : SlotNo} {c : Slot} :
    (k, c) ∈ slotsOf d st ↔ d.capture.slots.get k = some c ∧ c.stream = st := by
  rw [slotsOf, List.mem_filter, mem_slotsInUse, beq_iff_eq]

/-! ## The record to place (R62, R93) -/

section
variable {d : Device} {st : StreamNo} {m : PendingMark}

theorem recordToPlace_front (placed : ∀ m, (d.streams.get st).pendingMark = some m → m.record ≠ none) :
    recordToPlace d st = (d.streams.get st).positions.head?.map fun p => .slot p.1 := by
  cases pending : (d.streams.get st).pendingMark with
  | none => simp only [recordToPlace, pending]
  | some m =>
    cases record : m.record with
    | none => exact absurd record (placed m pending)
    | some r => simp only [recordToPlace, pending, record]

/-- While the mark's record is unplaced, the oldest entry of an older epoch comes first. -/
theorem recordToPlace_older {before after : List (SlotNo × Nat)} {p : SlotNo × Nat}
    (pending : (d.streams.get st).pendingMark = some m) (unplaced : m.record = none)
    (positions : (d.streams.get st).positions = before ++ p :: after) (newer : ∀ b ∈ before, m.epoch ≤ b.2)
    (older : p.2 < m.epoch) : recordToPlace d st = some (.slot p.1) := by
  have found : (d.streams.get st).positions.find? (fun p => decide (p.2 < m.epoch)) = some p :=
    List.find?_eq_some_iff_append.mpr ⟨decide_eq_true older, before, after, positions, fun b mem => by
      simpa using newer b mem⟩
  simp only [recordToPlace, pending, unplaced, found]

/-- With no older entry the MARK record comes next, unless a slot of an older epoch has still to take its position. -/
theorem recordToPlace_mark (pending : (d.streams.get st).pendingMark = some m) (unplaced : m.record = none)
    (newer : ∀ p ∈ (d.streams.get st).positions, m.epoch ≤ p.2) : recordToPlace d st =
      if (slotsOf d st).any (fun p => decide (p.2.epoch < m.epoch) && p.2.unplaced) then none else some .mark := by
  have not_found : (d.streams.get st).positions.find? (fun p => decide (p.2 < m.epoch)) = none :=
    List.find?_eq_none.mpr fun p mem => by simpa using newer p mem
  simp only [recordToPlace, pending, unplaced, not_found]

theorem olderUnplaced_iff {epoch : Nat} : (slotsOf d st).any (fun p => decide (p.2.epoch < epoch) && p.2.unplaced) = true ↔
    ∃ k c, d.capture.slots.get k = some c ∧ c.stream = st ∧ c.epoch < epoch
      ∧ (c.phase = .reading ∨ c.phase = .waitingPosition) := by
  simp only [List.any_eq_true, Prod.exists, mem_slotsOf, Bool.and_eq_true, decide_eq_true_eq, unplaced_iff, and_assoc]

end

/-- Settles O28: by whether a pending mark is unplaced, and by what older epochs still hold. -/
theorem epochBoundaryRule : Obligations.EpochBoundaryRule := by
  unfold Obligations.EpochBoundaryRule
  intro d st x
  refine ⟨fun placed => ?_, fun m pending unplaced => ⟨fun before p after positions newer older =>
    recordToPlace_older pending unplaced positions newer older, fun newer => ⟨fun none_older => ?_, fun older => ?_⟩⟩⟩
  · rw [recordToPlace_front placed]
    show (x.positions.head?.map fun p => Placeable.slot p.1) = _
    cases x.positions <;> rfl
  · rw [recordToPlace_mark pending unplaced newer, if_neg]
    rw [olderUnplaced_iff]
    rintro ⟨k, c, slot, stream, older, phase⟩
    obtain ⟨reading, waiting⟩ := none_older k c slot stream older
    exact phase.elim reading waiting
  · rw [recordToPlace_mark pending unplaced newer, if_pos (olderUnplaced_iff.mpr older)]

/-! ## Offers of anchor writes (R124) -/

theorem joinAnchor_eq (o : Occasion) (x : Stream) : joinAnchor o x = { x with anchorWaiting := joined o x.anchorWaiting } := by
  unfold joinAnchor joined
  cases waiting : x.anchorWaiting with
  | none => rfl
  | some w =>
    cases frozen : w.frozen with
    | none => simp [frozen]
    | some f =>
      simp only [frozen, reduceCtorEq, if_false]
      rw [← waiting]

theorem offerAnchor_eq (st : StreamNo) (o : Occasion) (d : Device) : offerAnchor st o d = { d with
    streams := d.streams.set st { d.streams.get st with anchorWaiting := joined o (d.streams.get st).anchorWaiting } } := by
  rw [offerAnchor, Device.withStream, joinAnchor_eq]

/-! ## Marks retired (R88, R99) -/

/-- The MARK_RETIRED report of the mark at place `o.2` of those that `count` held marks begin with (Table 5-1). -/
def retiredReport (st : StreamNo) (cause count : Nat) (o : MarkEntry × Nat) : Report :=
  { kind := .markRetired, stream := st.1, epoch := o.1.epoch, label := o.1.label.toNat, sequence := o.1.sequence
    first := cause, second := count - 1 - o.2 }

/-- Reports handed over one after another leave the streams alone, and a change of a stream may come before or after them. -/
theorem foldl_pushReport_streams {α : Type} (l : List α) (g : α → Report) (d : Device) :
    (l.foldl (fun d o => pushReport (g o) d) d).streams = d.streams := by
  induction l generalizing d with
  | nil => rfl
  | cons o l ih => exact ih (pushReport (g o) d)

theorem foldl_pushReport_withStream {α : Type} (l : List α) (g : α → Report) (d : Device) (st : StreamNo)
    (f : Stream → Stream) : l.foldl (fun d o => pushReport (g o) d) (d.withStream st f) =
      (l.foldl (fun d o => pushReport (g o) d) d).withStream st f := by
  induction l generalizing d with
  | nil => rfl
  | cons o l ih => exact ih (pushReport (g o) d)

theorem withStream_withStream (d : Device) (st : StreamNo) (f g : Stream → Stream) :
    (d.withStream st f).withStream st g = d.withStream st fun x => g (f x) := by
  simp [Device.withStream]

/-- A change that leaves the stream as it is. -/
theorem withStream_same {d : Device} {st : StreamNo} {f : Stream → Stream} (same : f (d.streams.get st) = d.streams.get st) :
    d.withStream st f = d := by
  rw [Device.withStream, same, Table.set_get_self]

theorem retireOldest_eq {st : StreamNo} {cause : RetireCause} {d : Device} {m : MarkEntry} {rest : List MarkEntry}
    (marks : (d.streams.get st).marks = m :: rest) : retireOldest st cause d =
      (pushReport { kind := .markRetired, stream := st.1, epoch := m.epoch, label := m.label.toNat, sequence := m.sequence,
                    first := cause.code, second := rest.length } d).withStream st fun x => { x with marks := rest } := by
  simp only [retireOldest, marks]
  rfl

theorem retireWhile_stop {p : MarkEntry → Bool} {st : StreamNo} {cause : RetireCause} {d : Device} (n : Nat)
    (stop : ∀ m, (d.streams.get st).marks.head? = some m → p m = false) : retireWhile p st cause n d = d := by
  cases n with
  | zero => rfl
  | succ n =>
    cases marks : (d.streams.get st).marks with
    | nil => simp only [retireWhile, marks]
    | cons m rest => simp only [retireWhile, marks, stop m (by rw [marks]; rfl), Bool.false_eq_true, if_false]

/-- Retirement takes the leading marks that meet the condition, oldest first, and stops at the first that does not. -/
theorem retireWhile_eq {p : MarkEntry → Bool} {st : StreamNo} {cause : RetireCause} (older newer : List MarkEntry) (k n : Nat)
    (d : Device) (marks : (d.streams.get st).marks = older ++ newer) (meet : ∀ m ∈ older, p m = true)
    (stop : ∀ m, newer.head? = some m → p m = false) (enough : older.length ≤ n) :
    retireWhile p st cause n d =
      ((older.zipIdx k).foldl (fun d o => pushReport (retiredReport st cause.code (k + (older ++ newer).length) o) d) d).withStream
        st fun x => { x with marks := newer } := by
  induction older generalizing k n d with
  | nil =>
    rw [List.nil_append] at marks
    rw [retireWhile_stop n (marks ▸ stop)]
    exact (withStream_same (by rw [← marks])).symm
  | cons m rest ih =>
    cases n with
    | zero => cases enough
    | succ n =>
      have marks : (d.streams.get st).marks = m :: (rest ++ newer) := marks
      have after : ((retireOldest st cause d).streams.get st).marks = rest ++ newer := by
        rw [retireOldest_eq marks]
        simp
      have oldest : retireWhile p st cause (n + 1) d = retireWhile p st cause n (retireOldest st cause d) := by
        simp only [retireWhile, marks, meet m List.mem_cons_self, if_true]
      have count : k + 1 + (rest ++ newer).length = k + (m :: rest ++ newer).length := by
        simp only [List.cons_append, List.length_cons]
        omega
      have left : (rest ++ newer).length = k + (m :: rest ++ newer).length - 1 - k := by
        simp only [List.cons_append, List.length_cons]
        omega
      rw [oldest, ih (k + 1) n _ after (fun m' mem => meet m' (List.mem_cons_of_mem _ mem)) (Nat.le_of_succ_le_succ enough),
        count, retireOldest_eq marks, foldl_pushReport_withStream, withStream_withStream, List.zipIdx_cons, List.foldl_cons, left]
      rfl

/-- R99 with room in the history. -/
theorem forcedRetirement_room {d : Device} {st : StreamNo} (room : (d.streams.get st).history.length < 16) :
    forcedRetirement st d = d := if_neg (Nat.not_le.mpr room)

/-- R99 with the history full. -/
theorem forcedRetirement_full {d : Device} {st : StreamNo} {a b : Segment} {rest : List Segment} {older newer : List MarkEntry}
    (history : (d.streams.get st).history = a :: b :: rest) (full : 14 ≤ rest.length)
    (marks : (d.streams.get st).marks = older ++ newer) (oldest : ∀ m ∈ older, m.sequence < b.first)
    (stop : ∀ m, newer.head? = some m → b.first ≤ m.sequence) : forcedRetirement st d =
      (older.zipIdx.foldl (fun d' o => pushReport (retiredReport st 3 (d.streams.get st).marks.length o) d') d).withStream st
        fun _ => ({ d.streams.get st with marks := newer } : Stream).freeSegments := by
  have limit : Config.historyEntries ≤ (d.streams.get st).history.length := by
    rw [history]
    exact Nat.add_le_add_right full 2
  have second : (((d.streams.get st).history.drop 1).head?.map (·.first)).getD 0 = b.first := by rw [history]; rfl
  have retired := retireWhile_eq (p := fun m => decide (m.sequence < b.first)) (cause := .history) older newer 0
    (d.streams.get st).marks.length d marks (fun m mem => decide_eq_true (oldest m mem))
    (fun m head => decide_eq_false (Nat.not_lt.mpr (stop m head))) (by rw [marks, List.length_append]; omega)
  rw [← marks, Nat.zero_add] at retired
  simp only [forcedRetirement, if_pos limit, second, retired, withStream_withStream]
  simp only [Device.withStream, foldl_pushReport_streams]
  rfl

/-- Settles O30: with fewer than 16 entries nothing is done; with 16 the marks before the second entry's first sequence go. -/
theorem fullHistoryMakesRoom : Obligations.FullHistoryMakesRoom := by
  unfold Obligations.FullHistoryMakesRoom
  exact fun d st => ⟨forcedRetirement_room, fun a b rest older newer history full marks oldest stop =>
    forcedRetirement_full history full marks oldest stop⟩

end Sys2Proof.Proofs

/-! PROOF. RECORD_PLACEMENT (R62 to R64, R69 to R71, R106) and the answers to the lines of a record (R51, R63, R66, R77). Statements
`Obligations.RecordPlaced` and `RecordLineAnswered`. -/
namespace Sys2Proof.Proofs
open Sys2Proof Sys2Proof.Machine

/-! ## Placing -/

section
variable {d : Device} {st : StreamNo} {x : Stream} {cur : CurrentSegment} {n : Nat} {p : Placeable}

theorem placesRecords_iff : placesRecords d st = true ↔
    Places d st (d.streams.get st) ∧ (d.streams.get st).entering = false ∧ d.check.state = .normal := by
  simp only [placesRecords, Bool.and_eq_true, Bool.or_eq_true, enginePhase, normal_iff, Places, beq_iff_eq, Bool.not_eq_true',
    and_assoc, or_assoc]
  cases (d.streams.get st).attach <;> simp

/-- What RECORD_PLACEMENT does with a record in the current segment. -/
def placement (st : StreamNo) (p : Placeable) (n : Nat) (cur : CurrentSegment) (d : Device) : Option Device :=
  if 4294967295 ≤ n then some (sequenceLimitMet st p d)
  else if cur.index < cur.contents.count then some (placeAt st p n (cur.contents.base + cur.index * 128) d)
  else needSegment st p cur d

theorem tryRecordPlacement_eq (stream : d.streams.get st = x) (places : Places d st x) (entered : x.entering = false)
    (state : d.check.state = .normal) (record : recordToPlace d st = some p) (current : x.current = some cur)
    (next : x.nextSequence = some n) : tryRecordPlacement st d = placement st p n cur d := by
  subst stream
  simp only [tryRecordPlacement, placesRecords_iff.mpr ⟨places, entered, state⟩, if_true, record, next, current]
  rfl

theorem placement_limit : placement st p 4294967295 cur d = some (sequenceLimitMet st p d) := if_pos (Nat.le_refl _)

theorem placement_room (below : n < 4294967295) (room : cur.index < cur.contents.count) :
    placement st p n cur d = some (placeAt st p n (cur.contents.base + cur.index * 128) d) := by
  rw [placement, if_neg (Nat.not_le.mpr below), if_pos room]

theorem placement_full (below : n < 4294967295) (full : cur.contents.count ≤ cur.index) :
    placement st p n cur d = needSegment st p cur d := by
  rw [placement, if_neg (Nat.not_le.mpr below), if_neg (Nat.not_lt.mpr full)]

theorem recordWrites_eq (job : Bool → Job) (address : Nat) (header image : Line) : recordWrites job address header image =
    [⟨job false, address, true, BitVec.allOnes 64, header⟩, ⟨job true, address + 64, true, BitVec.allOnes 64, image⟩] := by
  rw [← fullMask_eq]
  rfl

theorem advance_eq (current : x.current = some cur) (next : x.nextSequence = some n) : x.advance =
    { x with nextSequence := some (n + 1), current := some { cur with index := cur.index + 1 } } := by
  simp [Stream.advance, current, next]

theorem placeAt_slot {k : SlotNo} {c : Slot} {image : Line} {address : Nat} (current : (d.streams.get st).current = some cur)
    (next : (d.streams.get st).nextSequence = some n) (slot : d.capture.slots.get k = some c) (read : c.image = some image) :
    placeAt st (.slot k) n address d = offerAll (recordWrites (.slotRecord k) address
      (recordHeader 1 st.1 c.region.1 (d.streams.get st).stamp.toNat n c.epoch c.line 0 image) image)
      { d with
        streams := d.streams.set st { d.streams.get st with
          nextSequence := some (n + 1)
          current := some { cur with index := cur.index + 1 }
          positions := (d.streams.get st).positions.filter fun q => q.1 != k }
        capture := { d.capture with
          slots := d.capture.slots.set k
            (some { c with sequence := some n, address := some address, phase := .writing }) } } := by
  simp only [placeAt, slot, placeSlot, read, Option.getD_some, Device.withStream, advance_eq current next, leavePositions,
    Device.withSlot, Table.get_set, Table.set_set]
  rfl

theorem placeAt_mark {m : PendingMark} {address : Nat} (current : (d.streams.get st).current = some cur)
    (next : (d.streams.get st).nextSequence = some n) (pending : (d.streams.get st).pendingMark = some m) :
    placeAt st .mark n address d = offerAll (recordWrites (.markRecord st) address
      (recordHeader 2 st.1 0 (d.streams.get st).stamp.toNat n m.epoch 0 m.label.toNat 0) 0)
      { d with streams := d.streams.set st { d.streams.get st with
          nextSequence := some (n + 1)
          current := some { cur with index := cur.index + 1 }
          pendingMark := some { m with record := some ⟨n, address, 0⟩ }
          operation := (d.streams.get st).operation.map fun o => { o with sequence := n } } } := by
  simp only [placeAt, pending, placeMark, Device.withStream, advance_eq current next, Table.get_set, Table.set_set]
  rfl

/-! ## A record that needs a segment -/

/-- Retirement changes the marks of its stream alone. -/
theorem retireOldest_stream (cause : RetireCause) : ∃ marks,
    (retireOldest st cause d).streams = d.streams.set st { d.streams.get st with marks := marks } := by
  cases marks : (d.streams.get st).marks with
  | nil => exact ⟨[], by simp only [retireOldest, marks]; rw [← marks, Table.set_get_self]⟩
  | cons m rest => exact ⟨rest, by rw [retireOldest_eq marks]; rfl⟩

theorem retireWhile_nextSequence (p : MarkEntry → Bool) (cause : RetireCause) (k : Nat) :
    ((retireWhile p st cause k d).streams.get st).nextSequence = (d.streams.get st).nextSequence := by
  induction k generalizing d with
  | zero => rfl
  | succ k ih =>
    cases marks : (d.streams.get st).marks with
    | nil => simp only [retireWhile, marks]
    | cons m rest =>
      simp only [retireWhile, marks]
      split
      · obtain ⟨ms, streams⟩ := retireOldest_stream (d := d) (st := st) cause
        rw [ih, streams, Table.get_set]
      · rfl

theorem forcedRetirement_nextSequence :
    ((forcedRetirement st d).streams.get st).nextSequence = (d.streams.get st).nextSequence := by
  simp only [forcedRetirement]
  split
  · simp only [Device.withStream, Table.get_set]
    exact retireWhile_nextSequence _ _ _
  · rfl

theorem enterSegment_eq {a : Nat} {c : Descriptor} {e : Device} (retired : e = forcedRetirement st d)
    (next : (d.streams.get st).nextSequence = some n) : enterSegment st a c d = { e with
      streams := e.streams.set st { e.streams.get st with
        current := some ⟨a, c, 0⟩
        history := (e.streams.get st).history ++ [⟨a, c.base, c.count, n, c.notify⟩]
        next := .absent
        entering := true
        anchorWaiting := joined (.entry ((e.streams.get st).history.length + 1)) (e.streams.get st).anchorWaiting } } := by
  have kept : (e.streams.get st).nextSequence = some n := by rw [retired, forcedRetirement_nextSequence, next]
  simp only [enterSegment, ← retired, offerAnchor_eq, Device.withStream, Stream.enter, Table.get_set, Table.set_set,
    List.length_append, List.length_singleton, kept, Option.getD_some]

theorem needSegment_held {a : Nat} {c : Descriptor} (held : (d.streams.get st).next = .held a c) :
    needSegment st p cur d = some (enterSegment st a c d) := by
  simp only [needSegment, held]

theorem needSegment_fetching {a : Nat} (fetching : (d.streams.get st).next = .fetching a) :
    needSegment st p cur d = none := by
  simp only [needSegment, fetching]

theorem needSegment_last (absent : (d.streams.get st).next = .absent) (last : cur.contents.last = true) :
    needSegment st p cur d = runOut st p d := by
  simp only [needSegment, absent, last, if_true]

theorem runOut_stall (active : (d.streams.get st).state = .active) (policy : (d.streams.get st).policy = .stall) :
    runOut st p d = some (exhaust st d) := by
  simp only [runOut, active, policy]

theorem exhaust_eq (next : (d.streams.get st).nextSequence = some n) (current : (d.streams.get st).current = some cur) :
    exhaust st d = pushReport { kind := .streamExhausted, stream := st.1, epoch := (d.streams.get st).epoch.getD 0, sequence := n,
                                address := cur.descriptor, first := (d.streams.get st).positions.length,
                                second := match (d.streams.get st).stallLimit with
                                  | some k => k
                                  | none => 11 }
      { d with streams := d.streams.set st { d.streams.get st with state := .exhausted, stallStart := some d.now } } := by
  simp only [exhaust, next, current, stallCode, Option.getD_some, Option.map_some, Device.withStream]
  cases (d.streams.get st).stallLimit <;> rfl

end

/-- Settles O29: the placement, by the sequence limit, the room in the segment, and the next descriptor. -/
theorem recordPlaced : Obligations.RecordPlaced := by
  unfold Obligations.RecordPlaced
  refine ⟨fun s st x cur n p stream places entered state record current next => ?_,
    fun s st x cur n p stream places entered state record current next below full => ?_⟩
  · have step := tryRecordPlacement_eq stream places entered state record current next
    subst stream
    refine ⟨fun top other => ?_, fun k top back slot => ?_, fun below room => ?_⟩
    · subst top
      rw [placement_limit, sequenceLimitMet, if_neg other] at step
      rw [exec_recordPlacement, innerEvent_done step]
    · subst top slot
      rw [placement_limit, sequenceLimitMet, if_pos back] at step
      rw [exec_recordPlacement, innerEvent_done step]
      rfl
    · rw [placement_room below room] at step
      intro address moved writes
      refine ⟨fun k c image isSlot slot read => ?_, fun m isMark pending => ?_⟩
      · subst isSlot
        rw [placeAt_slot current next slot read, recordWrites_eq] at step
        exact (exec_recordPlacement _ _).trans (innerEvent_done step)
      · subst isMark
        rw [placeAt_mark current next pending, recordWrites_eq] at step
        exact (exec_recordPlacement _ _).trans (innerEvent_done step)
  · have step := tryRecordPlacement_eq stream places entered state record current next
    subst stream
    rw [placement_full below full] at step
    refine ⟨fun a c held => ?_, fun a fetching => ?_, fun absent last => ?_⟩
    · rw [needSegment_held held, enterSegment_eq rfl next] at step
      exact (exec_recordPlacement _ _).trans (innerEvent_done step)
    · rw [needSegment_fetching fetching] at step
      rw [exec_recordPlacement, innerEvent_idle step]
    · rw [needSegment_last absent last] at step
      refine ⟨fun k back slot => ?_, fun detaching => ?_, fun active stall => ?_, fun active break_ => ?_⟩
      · simp only [runOut, back, slot, cancelPlaceable] at step
        rw [exec_recordPlacement, innerEvent_done step]
      · simp only [runOut, detaching] at step
        rw [exec_recordPlacement, innerEvent_idle step]
      · rw [runOut_stall active stall, exhaust_eq next current] at step
        exact (exec_recordPlacement _ _).trans (innerEvent_done step)
      · simp only [runOut, active, break_] at step
        rw [exec_recordPlacement, innerEvent_done step]

/-! ## A contained check of a stream (R77) -/

section
variable {d : Device} {st : StreamNo} {cause : Cause} {sequence address : Nat}

theorem losable_iff {x : Stream} : x.losable = true ↔ CanBeLost x := by
  simp [Stream.losable, CanBeLost, or_assoc]

theorem streamFault_lost (state : d.check.state = .normal) (lost : CanBeLost (d.streams.get st)) :
    streamFault st cause sequence address d =
      loseStream st cause false sequence address (pushReport (checkReport st cause sequence address) d) := by
  have attached : ¬ ((d.streams.get st).state = .opening ∨ (d.streams.get st).state = .resuming) := by
    rcases lost with h | h | h | h <;> simp [h]
  simp only [streamFault, normal_iff.mpr state, Bool.not_true, Bool.false_eq_true, if_false, if_neg attached,
    losable_iff.mpr lost, if_true]

/-- R131: a contained check of a stream that its ATTACH is taking up ends the ATTACH. -/
theorem streamFault_attaching (state : d.check.state = .normal)
    (attaching : (d.streams.get st).state = .opening ∨ (d.streams.get st).state = .resuming) :
    streamFault st cause sequence address d = endAttach st .failed cause.code sequence address d := by
  simp only [streamFault, normal_iff.mpr state, Bool.not_true, Bool.false_eq_true, if_false, if_pos attaching]

theorem streamFault_dropped (handling : d.check.state ≠ .normal) :
    streamFault st cause sequence address d = dropFault st d :=
  streamFault_handling (Bool.eq_false_iff.mpr (mt normal_iff.mp handling)) _ _ _ _

end

/-! ## Answers to the lines of a record -/

theorem returned_check (t : MemTag) (r : PortRequest) (d : Device) : (returned t r d).check.state = d.check.state := rfl

theorem returned_streams (t : MemTag) (r : PortRequest) (d : Device) : (returned t r d).streams = d.streams := rfl

theorem returned_capture (t : MemTag) (r : PortRequest) (d : Device) : (returned t r d).capture = d.capture := rfl

section
variable {d : Device} {k : SlotNo} {c : Slot} {line : Nat}

/-- A line of a record is answered as its slot stands. -/
theorem slotRecordAnswered_done (slot : d.capture.slots.get k = some c) (kept : c.lost = false) :
    slotRecordAnswered k line .done d =
      if c.linesWritten + 1 = 2 then recordAcknowledged c.stream (c.sequence.getD 0) (d.withSlot k (some { c with
        linesAnswered := c.linesAnswered + 1, linesWritten := c.linesWritten + 1, phase := .done }))
      else d.withSlot k (some { c with linesAnswered := c.linesAnswered + 1, linesWritten := c.linesWritten + 1 }) := by
  simp only [slotRecordAnswered, slot, kept, Bool.false_eq_true, if_false]

theorem slotRecordAnswered_error (slot : d.capture.slots.get k = some c) (kept : c.lost = false) :
    slotRecordAnswered k line .error d = streamFault c.stream .recordWrite (c.sequence.getD 0) (c.address.getD line)
      (d.withSlot k (some { c with linesAnswered := c.linesAnswered + 1 })) := by
  simp only [slotRecordAnswered, slot, kept, Bool.false_eq_true, if_false]

/-- A slot of a lost stream (R56): free after both answers, the lines written counted. -/
def lostSlotAnswered (k : SlotNo) (c : Slot) (written : Nat) (d : Device) : Device :=
  if c.linesAnswered = 1 then freeSlot k d
  else d.withSlot k (some { c with linesAnswered := c.linesAnswered + 1, linesWritten := written })

theorem slotRecordAnswered_lost (slot : d.capture.slots.get k = some c) (lost : c.lost = true) (a : MemAnswer) :
    slotRecordAnswered k line a d =
      lostSlotAnswered k c (if a = .error then c.linesWritten else c.linesWritten + 1) d := by
  simp only [slotRecordAnswered, slot, lost, if_true, lostSlotAnswered]
  by_cases failed : a = .error <;> simp [failed]

variable {st : StreamNo} {m : PendingMark} {p : PlacedMark}

theorem markRecordAnswered_done (pending : (d.streams.get st).pendingMark = some m) (record : m.record = some p) :
    markRecordAnswered st .done d =
      let counted := d.withStream st fun x =>
        { x with pendingMark := some { m with record := some { p with linesWritten := p.linesWritten + 1 } } }
      if p.linesWritten + 1 = 2 then recordAcknowledged st p.sequence counted else counted := by
  simp only [markRecordAnswered, pending, record]

theorem markRecordAnswered_error (pending : (d.streams.get st).pendingMark = some m) (record : m.record = some p) :
    markRecordAnswered st .error d = streamFault st .recordWrite p.sequence p.address d := by
  simp only [markRecordAnswered, pending, record]

end

/-- An answer to a write, whose line is released at the answer, as an event. -/
theorem exec_recordLineAnswer_write {s : State} {t : MemTag} {r : PortRequest} {a : MemAnswer} {e : Device}
    (outstanding : Outstanding s.dev t r) (kind : wrongKind r a = false) (owns : r.job.releasesAtAnswer = true)
    (told : tellJob r a (returned t r s.dev) = e) :
    exec (.recordLineAnswer t a) s = .next { s with dev := finish e } := by
  rw [exec_recordLineAnswer, event_next, memoryAnswer_returned outstanding kind owns, told]

/-- Settles O31: by the record's owner, the lines already written, and what a check does to the stream. -/
theorem recordLineAnswered : Obligations.RecordLineAnswered := by
  unfold Obligations.RecordLineAnswered
  intro s t r outstanding write d
  have done_kind : wrongKind r .done = false := by simp [wrongKind, write]
  have error_kind : wrongKind r .error = false := rfl
  refine ⟨fun k b c job slot kept => ?_, fun k b c job slot lost => ?_, fun st b m p job pending record => ?_⟩
  · have owns : r.job.releasesAtAnswer = true := by rw [job]; rfl
    have told (a : MemAnswer) : tellJob r a (returned t r s.dev) = slotRecordAnswered k r.line a d := by
      simp only [tellJob, job]; rfl
    have error := (told .error).trans (slotRecordAnswered_error slot kept)
    have done := (told .done).trans (slotRecordAnswered_done slot kept)
    refine ⟨fun first => ?_, fun n second sequence => ?_, fun n a sequence address state lost => ?_, fun handling => ?_⟩
    · refine exec_recordLineAnswer_write outstanding done_kind owns (done.trans ?_)
      rw [first, if_neg (by decide)]
    · refine exec_recordLineAnswer_write outstanding done_kind owns (done.trans ?_)
      rw [second, if_pos rfl, sequence]
      rfl
    · refine exec_recordLineAnswer_write outstanding error_kind owns ((error.trans (streamFault_lost state lost)).trans ?_)
      rw [sequence, address]
      rfl
    · exact exec_recordLineAnswer_write outstanding error_kind owns (error.trans (streamFault_dropped handling))
  · have owns : r.job.releasesAtAnswer = true := by rw [job]; rfl
    have told (a : MemAnswer) : tellJob r a (returned t r s.dev) = slotRecordAnswered k r.line a d := by
      simp only [tellJob, job]; rfl
    exact ⟨exec_recordLineAnswer_write outstanding done_kind owns ((told .done).trans (slotRecordAnswered_lost (d := d) slot lost .done)),
      exec_recordLineAnswer_write outstanding error_kind owns ((told .error).trans (slotRecordAnswered_lost (d := d) slot lost .error))⟩
  · have owns : r.job.releasesAtAnswer = true := by rw [job]; rfl
    have told (a : MemAnswer) : tellJob r a (returned t r s.dev) = markRecordAnswered st a d := by
      simp only [tellJob, job]; rfl
    have error := (told .error).trans (markRecordAnswered_error pending record)
    have done := (told .done).trans (markRecordAnswered_done pending record)
    refine ⟨fun first => ?_, fun second => ?_, fun state lost => ?_, fun state opening => ?_, fun handling => ?_⟩
    · refine exec_recordLineAnswer_write outstanding done_kind owns (done.trans ?_)
      simp only [first] <;> rfl
    · refine exec_recordLineAnswer_write outstanding done_kind owns (done.trans ?_)
      simp only [second] <;> rfl
    · exact exec_recordLineAnswer_write outstanding error_kind owns (error.trans (streamFault_lost state lost))
    · exact exec_recordLineAnswer_write outstanding error_kind owns
        (error.trans (streamFault_attaching state (.inl opening)))
    · exact exec_recordLineAnswer_write outstanding error_kind owns (error.trans (streamFault_dropped handling))

end Sys2Proof.Proofs

/-! PROOF. A record acknowledged (R52, R65, R66), and a mark committed (R88 to R90, R95, R100). Statements
`Obligations.RecordAcknowledged` and `MarkCommits`. -/
namespace Sys2Proof.Proofs
open Sys2Proof Sys2Proof.Machine

/-! ## The acknowledged set (R65) -/

section
variable {n : Nat}

theorem mem_insertSequence {acknowledged : List Nat} {m : Nat} :
    m ∈ insertSequence n acknowledged ↔ m = n ∨ m ∈ acknowledged := by
  induction acknowledged with
  | nil => simp [insertSequence]
  | cons a rest ih =>
    rw [insertSequence]
    split_ifs with below same
    · exact List.mem_cons
    · rw [same, List.mem_cons, ← or_assoc, or_self]
    · rw [List.mem_cons, ih, List.mem_cons]
      exact or_left_comm

theorem insertSequence_ascending {acknowledged : List Nat} (ascending : acknowledged.Pairwise (· < ·)) :
    (insertSequence n acknowledged).Pairwise (· < ·) := by
  induction acknowledged with
  | nil => simp [insertSequence]
  | cons a rest ih =>
    obtain ⟨first, others⟩ := List.pairwise_cons.mp ascending
    rw [insertSequence]
    split_ifs with below same
    · refine List.pairwise_cons.mpr ⟨fun b mem => ?_, ascending⟩
      rcases List.mem_cons.mp mem with same | later
      · exact same ▸ below
      · exact Nat.lt_trans below (first b later)
    · exact ascending
    · refine List.pairwise_cons.mpr ⟨fun b mem => ?_, ih others⟩
      rcases mem_insertSequence.mp mem with new | old
      · omega
      · exact first b old

/-- The committed sequence rises through the sequences that follow on one another, and stops before the first that is missing. -/
theorem riseThrough_spec (l : List Nat) (c : Nat) (ascending : l.Pairwise (· < ·)) (above : ∀ a ∈ l, c < a) :
    c ≤ (riseThrough l c).2 ∧ (∀ m, c < m → m ≤ (riseThrough l c).2 → m ∈ l)
    ∧ (riseThrough l c).2 + 1 ∉ (riseThrough l c).1
    ∧ (∀ m, m ∈ (riseThrough l c).1 ↔ m ∈ l ∧ (riseThrough l c).2 < m) ∧ (riseThrough l c).1.Pairwise (· < ·) := by
  induction l generalizing c with
  | nil => exact ⟨Nat.le_refl _, fun m lower upper => absurd upper (Nat.not_le.mpr lower), by simp [riseThrough]⟩
  | cons a rest ih =>
    obtain ⟨first, others⟩ := List.pairwise_cons.mp ascending
    have next : c < a := above a List.mem_cons_self
    rw [riseThrough]
    split_ifs with follows
    · obtain ⟨rises, passed, stops, left, sorted⟩ := ih a others first
      refine ⟨by omega, fun m lower upper => ?_, stops, fun m => ?_, sorted⟩
      · rcases Nat.lt_or_eq_of_le (show a ≤ m by omega) with later | same
        · exact List.mem_cons_of_mem _ (passed m later upper)
        · exact same ▸ List.mem_cons_self
      · rw [left m, List.mem_cons]
        exact and_congr_left fun higher => ⟨.inr, fun mem => mem.resolve_left (by omega)⟩
    · refine ⟨Nat.le_refl _, fun m lower upper => absurd upper (Nat.not_le.mpr lower), fun mem => ?_,
        fun m => ⟨fun mem => ⟨mem, above m mem⟩, And.left⟩, ascending⟩
      rcases List.mem_cons.mp mem with same | later
      · exact follows same.symm
      · have := first _ later
        omega

end

/-! ## The slots released (R52) -/

theorem slotsInUse_nodup (d : Device) : ((slotsInUse d).map (·.1)).Nodup := by
  have tags : (slotsInUse d).map (·.1) = (indices 16).filter fun k => (d.capture.slots.get k).isSome := by
    rw [slotsInUse, List.map_filterMap, ← List.filterMap_eq_filter]
    congr 1
    funext k
    cases slot : d.capture.slots.get k <;> simp [Option.guard, slot]
  rw [tags]
  exact (List.nodup_finRange 16).filter _

theorem insertBySequence_perm (p : SlotNo × Slot) (l : List (SlotNo × Slot)) : (insertBySequence p l).Perm (p :: l) := by
  induction l with
  | nil => exact .refl _
  | cons x rest ih =>
    rw [insertBySequence]
    split_ifs
    · exact .refl _
    · exact (ih.cons x).trans (.swap p x rest)

/-- One slot after another in ascending sequence. -/
abbrev BySequence (l : List (SlotNo × Slot)) : Prop := l.Pairwise fun p q => p.2.sequence.getD 0 ≤ q.2.sequence.getD 0

theorem insertBySequence_sorted (p : SlotNo × Slot) {l : List (SlotNo × Slot)} (sorted : BySequence l) :
    BySequence (insertBySequence p l) := by
  induction l with
  | nil => simp [insertBySequence]
  | cons x rest ih =>
    obtain ⟨first, others⟩ := List.pairwise_cons.mp sorted
    rw [insertBySequence]
    split_ifs with below
    · refine List.pairwise_cons.mpr ⟨fun q mem => ?_, sorted⟩
      rcases List.mem_cons.mp mem with same | later
      · exact same ▸ Nat.le_of_lt below
      · exact Nat.le_trans (Nat.le_of_lt below) (first q later)
    · refine List.pairwise_cons.mpr ⟨fun q mem => ?_, ih others⟩
      rcases List.mem_cons.mp ((insertBySequence_perm p rest).mem_iff.mp mem) with same | later
      · exact same ▸ Nat.not_lt.mp below
      · exact first q later

/-- The slots are taken in ascending sequence, each once. -/
theorem foldr_insertBySequence (l : List (SlotNo × Slot)) :
    (l.foldr insertBySequence []).Perm l ∧ BySequence (l.foldr insertBySequence []) := by
  induction l with
  | nil => exact ⟨.refl _, .nil⟩
  | cons p rest ih =>
    obtain ⟨perm, sorted⟩ := ih
    exact ⟨(insertBySequence_perm _ _).trans (perm.cons p), insertBySequence_sorted p sorted⟩

section
variable {d : Device} {st : StreamNo} {n : Nat}

theorem mem_releasable {k : SlotNo} {c : Slot} : (k, c) ∈ releasable d st n ↔
    d.capture.slots.get k = some c ∧ c.stream = st ∧ c.phase = .done ∧ c.sequence.getD 0 ≤ n := by
  rw [releasable, (foldr_insertBySequence _).1.mem_iff, List.mem_filter, mem_slotsOf]
  simp [and_assoc]

theorem releasable_nodup : ((releasable d st n).map (·.1)).Nodup := by
  rw [releasable, ((foldr_insertBySequence _).1.map _).nodup_iff]
  exact (slotsInUse_nodup d).sublist ((List.filter_sublist.trans List.filter_sublist).map _)

/-- One slot is released: the filter takes it as captured, its owner goes on, the slot is freed (R52). -/
theorem releaseSlot_eq (k : SlotNo) (c : Slot) : releaseSlot d (k, c) =
    freeSlot k (match c.owner with
      | some g => forward g { d with capture := { d.capture with
          filter := if c.linked = true then
              d.capture.filter.map fun e => if e.state = .pending k then { e with state := .captured } else e
            else d.capture.filter } }
      | none => { d with capture := { d.capture with
          filter := if c.linked = true then
              d.capture.filter.map fun e => if e.state = .pending k then { e with state := .captured } else e
            else d.capture.filter } }) := by
  simp only [releaseSlot]
  cases c.linked <;> cases c.owner <;> rfl

theorem recordAcknowledged_lost (lost : (d.streams.get st).state = .broken ∨ (d.streams.get st).state = .faulted) :
    recordAcknowledged st n d = d :=
  if_pos (by simpa [Stream.lost] using lost)

theorem recordAcknowledged_eq {c : Nat} (kept : (d.streams.get st).state ≠ .broken) (sound : (d.streams.get st).state ≠ .faulted)
    (committed : (d.streams.get st).committed = some c) :
    let r := riseThrough (insertSequence n (d.streams.get st).acknowledged) c
    let e : Device := { d with
      streams := d.streams.set st { d.streams.get st with acknowledged := r.1, committed := some r.2 } }
    recordAcknowledged st n d = if r.2 = c then e else testFreed st (testMark st (releaseCommitted st r.2 e)) := by
  have present : (d.streams.get st).lost = false := by simp [Stream.lost, kept, sound]
  simp only [recordAcknowledged, present, committed, Bool.false_eq_true, if_false]
  rfl

end

/-- Settles O32: by the acknowledged set, then the release of the slots that the committed sequence covers. -/
theorem recordAcknowledged : Obligations.RecordAcknowledged := by
  unfold Obligations.RecordAcknowledged
  refine ⟨fun acknowledged n c ascending above new => ?_, fun d st n => ⟨recordAcknowledged_lost, fun c kept sound committed =>
    recordAcknowledged_eq kept sound committed, ?_, fun k c => ⟨fun free => ?_, fun g q owner entry => ?_⟩⟩⟩
  · obtain ⟨rises, passed, stops, left, sorted⟩ := riseThrough_spec (insertSequence n acknowledged) c
      (insertSequence_ascending ascending) fun a mem => (mem_insertSequence.mp mem).elim (fun same => same ▸ new) (above a)
    exact ⟨rises, fun m lower upper => mem_insertSequence.mp (passed m lower upper), stops,
      fun m => (left m).trans (and_congr_left' mem_insertSequence), sorted⟩
  · exact ⟨releasable d st n, rfl, (foldr_insertBySequence _).2, releasable_nodup, fun k c => mem_releasable⟩
  · rw [releaseSlot_eq, free]
  · rw [releaseSlot_eq, owner]
    exact congrArg (freeSlot k) (forward_eq entry)

/-! ## Segments freed (R89, R90) -/

/-- What the examination of the history frees, of a history whose first `n` entries go. -/
def freedSegments (history : List Segment) (n : Nat) : List FreedSegment :=
  ((history.zip (history.drop 1)).take n).map fun e => ⟨e.1.descriptor, e.1.base, e.2.first - 1, .waiting⟩

/-- The examination goes on as long as the next entry begins at or below the limit, and never takes the last entry. -/
theorem freeFront_spec (limit : Option Nat) (history : List Segment) : ∃ n,
    (freeFront limit history).1 = freedSegments history n ∧ (freeFront limit history).2 = history.drop n
    ∧ (freeFront limit history).1.length = n ∧ (history ≠ [] → n < history.length)
    ∧ (∀ i (_ : i + 1 < history.length), i < n → ∀ l, limit = some l → history[i + 1].first ≤ l)
    ∧ (∀ _ : n + 1 < history.length, ∃ l, limit = some l ∧ l < history[n + 1].first) := by
  match history with
  | [] => exact ⟨0, rfl, rfl, rfl, by simp⟩
  | [a] => exact ⟨0, rfl, rfl, rfl, by simp⟩
  | a :: b :: rest =>
    rw [freeFront]
    split_ifs with frees
    · obtain ⟨n, freed, left, count, current, below, stops⟩ := freeFront_spec limit (b :: rest)
      refine ⟨n + 1, ?_, left, congrArg (· + 1) count, fun _ => Nat.succ_lt_succ (current (List.cons_ne_nil _ _)), ?_,
        fun inside => stops (Nat.lt_of_succ_lt_succ inside)⟩
      · exact congrArg (List.cons _) freed
      · rintro (_ | i) inside within l bound
        · rw [bound] at frees
          exact of_decide_eq_true frees
        · exact below i (Nat.lt_of_succ_lt_succ inside) (Nat.lt_of_succ_lt_succ within) l bound
    · refine ⟨0, rfl, rfl, rfl, fun _ => Nat.succ_pos _, fun i _ none => absurd none (Nat.not_lt_zero i), fun _ => ?_⟩
      cases limit with
      | none => exact absurd rfl frees
      | some l => exact ⟨l, rfl, Nat.not_le.mp fun le => frees (decide_eq_true le)⟩

theorem freeingLimit_eq (x : Stream) : freeingLimit x = ((x.marks.head?.map fun m => m.sequence).toList
    ++ ((x.pendingMark.bind fun m => m.record).map fun p => p.sequence).toList).min? := by
  simp only [freeingLimit]
  cases x.marks.head?.map (·.sequence) <;> cases (x.pendingMark.bind (·.record)).map (·.sequence) <;> rfl

/-! ## A mark commits (R95, R100) -/

section
variable {d : Device} {st : StreamNo} {m : PendingMark} {p : PlacedMark} {c sequence : Nat}

theorem testMark_covered (pending : (d.streams.get st).pendingMark = some m) (record : m.record = some p)
    (committed : (d.streams.get st).committed = some c) (covered : p.sequence ≤ c) :
    testMark st d = commitMark st m p.sequence d := by
  simp only [testMark, pending, record, committed, if_pos covered]

/-- The stream with the mark in its table. -/
def Stream.marked (x : Stream) (marks : List MarkEntry) (m : PendingMark) (sequence : Nat) : Stream :=
  { x with marks := marks ++ [⟨m.epoch, m.label, sequence⟩], pendingMark := none }

/-- What follows the entry of a mark other than the initial one. -/
def Stream.afterCommit (y : Stream) (sequence retired : Nat) : Stream :=
  { y.freeSegments with
    operation := y.operation.map fun o => { o with sequence := sequence, retired := retired, freed := y.freeable }
    anchorWaiting := joined .markCommit y.anchorWaiting }

/-- The mark enters a table that has room for it. -/
theorem commitMark_room (room : (d.streams.get st).marks.length < 8) : commitMark st m sequence d =
    d.withStream st fun x =>
      let y := Stream.marked x x.marks m sequence
      if x.state = .opening then { y with anchorWaiting := joined .attachSecond x.anchorWaiting }
      else Stream.afterCommit y sequence 0 := by
  have space : decide (Config.tableMarks ≤ (d.streams.get st).marks.length) = false :=
    decide_eq_false (Nat.not_le.mpr room)
  simp only [commitMark, space, offerAnchor_eq, Device.withStream, Table.get_set, Table.set_set, Bool.false_eq_true, if_false]
  split <;> rfl

/-- The mark enters a full table, whose oldest mark is retired. -/
theorem commitMark_full {o : MarkEntry} {rest : List MarkEntry} (other : (d.streams.get st).state ≠ .opening)
    (marks : (d.streams.get st).marks = o :: rest) (full : 7 ≤ rest.length) : commitMark st m sequence d =
    pushReport { kind := .markRetired, stream := st.1, epoch := o.epoch, label := o.label.toNat, sequence := o.sequence,
                 first := 1, second := rest.length }
      (d.withStream st fun x => Stream.afterCommit (Stream.marked x rest m sequence) sequence 1) := by
  have space : decide (Config.tableMarks ≤ (d.streams.get st).marks.length) = true :=
    decide_eq_true (by rw [marks]; exact Nat.succ_le_succ full)
  simp only [commitMark, space, retireOldest_eq marks, offerAnchor_eq, Device.withStream, Table.get_set, Table.set_set, if_true]
  exact if_neg other

end

/-- Settles O33: by the room in the mark table; the freeing by the recursion of the history's examination. -/
theorem markCommits : Obligations.MarkCommits := by
  unfold Obligations.MarkCommits
  refine ⟨fun d st x m p c stream pending record committed covered => ?_, freeingLimit_eq, fun x => ?_⟩
  · subst stream
    rw [testMark_covered pending record committed covered]
    refine ⟨fun opening room => ?_, fun other room => ?_, fun o rest other marks full => commitMark_full other marks full⟩
    · rw [commitMark_room room, Device.withStream, if_pos opening]
      rfl
    · rw [commitMark_room room, Device.withStream, if_neg other]
      rfl
  · obtain ⟨n, freed, left, count, current, below, stops⟩ := freeFront_spec (freeingLimit x) x.history
    refine ⟨n, left, current, count, below, stops, ?_⟩
    show x.freed ++ _ = _
    rw [freed]
    rfl

end Sys2Proof.Proofs

/-! PROOF. Descriptors: Table 4-3 and Table 11-5, the answers to their fetches (R67, R68, R76, R77) and to the first descriptor of an
ATTACH FRESH (R129, R131), and EXTEND (R73 to R76). Statements `Obligations.DescriptorJudged` and `ExtendProceeds`. -/
namespace Sys2Proof.Proofs
open Sys2Proof Sys2Proof.Machine

/-! ## A memory answer as an event -/

section
variable {s : State} {t : MemTag} {r : PortRequest} {e : Device}

/-- Data for a read whose line is released at the answer. -/
theorem event_data (outstanding : Outstanding s.dev t r) (read : r.write = false) (owns : r.job.releasesAtAnswer = true) (l : Line)
    (told : tellJob r (.data l) (returned t r s.dev) = e) :
    event (memoryAnswer t (.data l)) s = .next { s with dev := finish e } := by
  have kind : wrongKind r (.data l) = false := read
  rw [event_next, memoryAnswer_returned outstanding kind owns, told]

theorem event_error (outstanding : Outstanding s.dev t r) (owns : r.job.releasesAtAnswer = true)
    (told : tellJob r .error (returned t r s.dev) = e) :
    event (memoryAnswer t .error) s = .next { s with dev := finish e } := by
  rw [event_next, memoryAnswer_returned outstanding rfl owns, told]

theorem event_done (outstanding : Outstanding s.dev t r) (write : r.write = true) (owns : r.job.releasesAtAnswer = true)
    (told : tellJob r .done (returned t r s.dev) = e) :
    event (memoryAnswer t .done) s = .next { s with dev := finish e } := by
  have kind : wrongKind r .done = false := by simp [wrongKind, write]
  rw [event_next, memoryAnswer_returned outstanding kind owns, told]

end

/-- A record taken, as an event (R144). -/
theorem event_taken {s : State} {h : CmdHead} {opcode : Nat} {run : Device → Device} {e : Device} (taking : Taking s.dev)
    (ran : run (chained h s.dev) = e) : event (takeRecord h opcode run) s = .next { s with dev := finish e } := by
  rw [event_takeRecord_taking opcode run taking, ran]

/-! ## A descriptor's fields and their judgement -/

theorem valid_iff (w : BitVec 8) (c : Descriptor) : c.valid w = true ↔
    c.format = 0xD5 ∧ 16 ≤ c.count ∧ c.count ≤ 65536 ∧ c.base % 128 = 0 ∧ c.base + c.count * 128 ≤ 2 ^ 40
    ∧ (c.last = true ∨ (c.link % 32 = 0 ∧ c.link < 2 ^ 40))
    ∧ (windowBase w + 4096 ≤ c.base ∨ c.base + c.count * 128 ≤ windowBase w) := by
  have outside : meetsWindow w c.base (c.count * 128) = false ↔
      windowBase w + 4096 ≤ c.base ∨ c.base + c.count * 128 ≤ windowBase w := by
    rw [Bool.eq_false_iff, ne_eq, meetsWindow_iff, not_and_or, Nat.not_lt, Nat.not_lt]
  simp only [Descriptor.valid, Bool.and_eq_true, Bool.or_eq_true, Bool.not_eq_true', decide_eq_true_eq, outside, and_assoc]
  rfl

theorem bytesAt_bit {n : Nat} (w : BitVec n) (o : Nat) : (bytesAt w o 1 % 2 == 1) = w.getLsbD (8 * o) := by
  have bit := testBit_bytesAt w o 1 0
  rw [Nat.testBit_zero] at bit
  exact bit

theorem bytesAt_second_bit {n : Nat} (w : BitVec n) (o : Nat) : (bytesAt w o 1 / 2 % 2 == 1) = w.getLsbD (8 * o + 1) := by
  have bit := testBit_bytesAt w o 1 1
  rw [Nat.testBit_succ, Nat.testBit_zero] at bit
  exact bit

theorem parseDescriptor_eq (l : Line) (a : Nat) : parseDescriptor l a =
    let o : Nat := if a % 64 < 32 then 0 else 32
    { format := bytesAt l o 1, last := l.getLsbD (8 * (o + 1)), notify := l.getLsbD (8 * (o + 1) + 1)
      count := bytesAt l (o + 0x04) 4, base := bytesAt l (o + 0x08) 8, link := bytesAt l (o + 0x10) 8 } := by
  simp only [parseDescriptor, bytesAt_bit, bytesAt_second_bit]
  rfl

/-! ## The answer to a descriptor fetch -/

theorem withStream_get (d : Device) (st : StreamNo) (f : Stream → Stream) :
    (d.withStream st f).streams.get st = f (d.streams.get st) := Table.get_set ..

section
variable {d : Device} {st : StreamNo} {a target : Nat} {l : Line} {e : Extension}

theorem descriptorAnswered_data (fetching : (d.streams.get st).next = .fetching a) : descriptorAnswered st (.data l) d =
    if (parseDescriptor l a).valid d.winsel then descriptorHeld st a (parseDescriptor l a) d
    else streamFault st .descriptorInvalid 0 a d := by
  simp only [descriptorAnswered, fetching]

theorem descriptorAnswered_error (fetching : (d.streams.get st).next = .fetching a) :
    descriptorAnswered st .error d = streamFault st .descriptorFetch 0 a d := by
  simp only [descriptorAnswered, fetching]

theorem descriptorAnswered_absent (absent : (d.streams.get st).next = .absent) (m : MemAnswer) :
    descriptorAnswered st m d = d := by
  simp only [descriptorAnswered, absent]

variable {c : Descriptor}

theorem descriptorHeld_alone (alone : (d.streams.get st).extension = none) : descriptorHeld st a c d =
    d.withStream st fun x => { x with next := .held a c } := by
  simp only [descriptorHeld, alone]

theorem descriptorHeld_extending (extending : (d.streams.get st).extension = some e) (stage : e.stage = .fetching target) :
    descriptorHeld st a c d = extensionDone st e target
      (leaveExhaustion st (d.withStream st fun x => { x with next := .held a c })) := by
  simp only [descriptorHeld, extending, stage]

theorem leaveExhaustion_other (other : (d.streams.get st).state ≠ .exhausted) : leaveExhaustion st d = d := if_neg other

theorem leaveExhaustion_exhausted {active : Device} (exhausted : (d.streams.get st).state = .exhausted)
    (active_eq : d.withStream st (fun x => { x with state := .active, stallStart := none }) = active) :
    leaveExhaustion st d = (tryRecordPlacement st active).getD active := by
  rw [← active_eq]
  exact if_pos exhausted

end

/-! ## The first descriptor of an ATTACH -/

section
variable {d : Device} {st : StreamNo} {l : Line} {a : Attach} {c : Descriptor}

theorem firstDescriptorAnswered_data (attach : (d.streams.get st).attach = some a) : firstDescriptorAnswered st (.data l) d =
    if (parseDescriptor l a.firstAddress).valid d.winsel then
      testFresh st (d.withStream st fun x => { x with
        attach := some { a with first := some (parseDescriptor l a.firstAddress) } })
    else streamFault st .descriptorInvalid 0 a.firstAddress d := by
  simp only [firstDescriptorAnswered, attach, Device.withAttach, Device.withStream, Option.map_some]

theorem firstDescriptorAnswered_error (attach : (d.streams.get st).attach = some a) :
    firstDescriptorAnswered st .error d = streamFault st .descriptorFetch 0 a.firstAddress d := by
  simp only [firstDescriptorAnswered, attach]

theorem testFresh_waiting (attach : (d.streams.get st).attach = some a) (waiting : bothCopies a = none) :
    testFresh st d = d := by
  simp only [testFresh, attach, waiting]

theorem testFresh_ready {p q : BitVec 8192} (attach : (d.streams.get st).attach = some a) (copies : bothCopies a = some (p, q))
    (first : a.first = some c) (unset : (d.streams.get st).current = none) : testFresh st d =
      { d with streams := d.streams.set st { (d.streams.get st).freshen (newestValid p q) a.firstAddress c with
        anchorWaiting := joined .attachFirst (d.streams.get st).anchorWaiting } } := by
  simp only [testFresh, attach, copies, first, unset, if_true, offerAnchor_eq, Device.withStream, Table.get_set, Table.set_set]
  rfl

end

/-- Settles O34: the fields and the tests of a descriptor, then each outcome of its fetch. -/
theorem descriptorJudged : Obligations.DescriptorJudged := by
  unfold Obligations.DescriptorJudged
  refine ⟨valid_iff, parseDescriptor_eq, fun s t r st x outstanding read job stream => ?_,
    fun s t r st x a outstanding read job stream attach => ?_⟩
  · subst stream
    have owns : r.job.releasesAtAnswer = true := by rw [job]; rfl
    intro d
    have told (m : MemAnswer) : tellJob r m (returned t r s.dev) = descriptorAnswered st m d := by
      simp only [tellJob, job] <;> rfl
    have data {a : Nat} (l : Line) (fetching : (s.dev.streams.get st).next = .fetching a) :=
      (told (.data l)).trans (descriptorAnswered_data (d := d) fetching)
    have error {a : Nat} (fetching : (s.dev.streams.get st).next = .fetching a) :=
      (told .error).trans (descriptorAnswered_error (d := d) fetching)
    refine ⟨fun a l fetching valid => ?_, fun a l fetching invalid state lost => ?_, fun a fetching state lost => ?_,
      fun a fetching state attaching => ⟨fun l invalid => ?_, ?_⟩, fun a fetching handling => ⟨fun l invalid => ?_, ?_⟩,
      fun l absent => ?_⟩
    · have held := (data l fetching).trans (if_pos valid)
      refine ⟨fun alone => ?_, fun e target extending stage other => ?_, fun e target extending stage exhausted => ?_⟩
      · exact event_data outstanding read owns l (held.trans (descriptorHeld_alone (d := d) alone))
      · refine event_data outstanding read owns l (held.trans ((descriptorHeld_extending (d := d) extending stage).trans ?_))
        rw [leaveExhaustion_other (by rw [withStream_get]; exact other), extensionDone]
        simp only [Device.withStream, Table.get_set, Table.set_set]
        rfl
      · refine event_data outstanding read owns l (held.trans ((descriptorHeld_extending (d := d) extending stage).trans ?_))
        rw [leaveExhaustion_exhausted (by rw [withStream_get]; exact exhausted) rfl, extensionDone]
        simp only [Device.withStream, Table.get_set, Table.set_set]
        rfl
    · exact event_data outstanding read owns l
        ((data l fetching).trans ((if_neg (Bool.eq_false_iff.mp invalid)).trans (streamFault_lost (d := d) state lost)))
    · exact event_error outstanding owns ((error fetching).trans (streamFault_lost (d := d) state lost))
    · exact event_data outstanding read owns l
        ((data l fetching).trans ((if_neg (Bool.eq_false_iff.mp invalid)).trans (streamFault_attaching (d := d) state attaching)))
    · exact event_error outstanding owns ((error fetching).trans (streamFault_attaching (d := d) state attaching))
    · exact event_data outstanding read owns l
        ((data l fetching).trans ((if_neg (Bool.eq_false_iff.mp invalid)).trans (streamFault_dropped (d := d) handling)))
    · exact event_error outstanding owns ((error fetching).trans (streamFault_dropped (d := d) handling))
    · exact event_data outstanding read owns l ((told (.data l)).trans (descriptorAnswered_absent (d := d) absent _))
  · subst stream
    have owns : r.job.releasesAtAnswer = true := by rw [job]; rfl
    intro d answered
    have told (m : MemAnswer) : tellJob r m (returned t r s.dev) = firstDescriptorAnswered st m d := by
      simp only [tellJob, job] <;> rfl
    have data (l : Line) := (told (.data l)).trans (firstDescriptorAnswered_data (d := d) attach)
    have error := (told .error).trans (firstDescriptorAnswered_error (d := d) attach)
    refine ⟨fun l => ⟨fun valid waiting => ?_, fun p q valid copies unset => ?_, fun invalid state opening => ?_⟩,
      fun state opening => ?_, fun handling => ⟨?_, fun l invalid => ?_⟩⟩
    · refine event_data outstanding read owns l ((data l).trans ((if_pos valid).trans ?_))
      exact testFresh_waiting (congrArg Stream.attach (withStream_get ..)) waiting
    · refine event_data outstanding read owns l ((data l).trans ((if_pos valid).trans ?_))
      refine (testFresh_ready (a := { a with first := some (parseDescriptor l a.firstAddress) })
        (congrArg Stream.attach (withStream_get ..)) copies rfl
        ((congrArg Stream.current (withStream_get ..)).trans unset)).trans ?_
      simp only [Device.withStream, Table.get_set, Table.set_set]
      rfl
    · exact event_data outstanding read owns l ((data l).trans
        ((if_neg (Bool.eq_false_iff.mp invalid)).trans (streamFault_attaching (d := d) state (.inl opening))))
    · exact event_error outstanding owns (error.trans (streamFault_attaching (d := d) state (.inl opening)))
    · exact event_error outstanding owns (error.trans (streamFault_dropped (d := d) handling))
    · exact event_data outstanding read owns l ((data l).trans
        ((if_neg (Bool.eq_false_iff.mp invalid)).trans (streamFault_dropped (d := d) handling)))

/-! ## EXTEND's target (R74) -/

section
variable {d : Device} {st : StreamNo} {e : Extension}

/-- A choice that finds no descriptor to extend. -/
def chainNotEnded (st : StreamNo) (e : Extension) (d : Device) : Device :=
  streamDone st { kind := .commandDone, tag := e.tag, status := .chainNotEnded, address := e.descriptor }
    (d.withStream st fun x => { x with extension := none })

theorem tryExtendTargetChoice_choosing (extending : (d.streams.get st).extension = some e) (stage : e.stage = .choosing)
    (entered : (d.streams.get st).entering = false) (fetched : (d.streams.get st).fetching = false) :
    tryExtendTargetChoice st d = some (chooseTarget st e d) := by
  simp only [tryExtendTargetChoice, extending, stage, entered, fetched, true_and, if_true]

theorem chooseTarget_absent {c : CurrentSegment} (current : (d.streams.get st).current = some c)
    (absent : (d.streams.get st).next = .absent) : chooseTarget st e d =
      if c.contents.last = true then startUpdate st true c.descriptor d else chainNotEnded st e d := by
  simp only [chooseTarget, current, absent]
  rfl

theorem chooseTarget_held {a : Nat} {c : Descriptor} (held : (d.streams.get st).next = .held a c) : chooseTarget st e d =
    if c.last = true ∧ (d.streams.get st).extensionLink = none then startUpdate st false a d else chainNotEnded st e d := by
  simp only [chooseTarget, held]
  cases (d.streams.get st).current <;> rfl

theorem startUpdate_eq (extending : (d.streams.get st).extension = some e) (current : Bool) (target : Nat) :
    startUpdate st current target d = offer ⟨.updateRead st, lineOf target, false, 0, 0⟩
      (d.withStream st fun x => { x with extension := some { e with stage := .updating current target } }) := by
  simp only [startUpdate, Device.withStream, setStage, extending]
  rfl

/-! ## The descriptor update (R74, R75) -/

variable {t : MemTag} {r : PortRequest} {current : Bool} {target line : Nat}

theorem updateReadAnswered_data (extending : (d.streams.get st).extension = some e) (stage : e.stage = .updating current target)
    (l : Line) : updateReadAnswered st line (.data l) d =
      enterClass ⟨.updateWrite st, line, true, BitVec.allOnes 64, updatedDescriptorLine l target e.descriptor⟩ d := by
  simp only [updateReadAnswered, extending, stage, writeOf, fullMask_eq]

theorem updateReadAnswered_error (extending : (d.streams.get st).extension = some e)
    (stage : e.stage = .updating current target) :
    updateReadAnswered st line .error d = streamFault st .descriptorUpdate 0 target (releaseLine line d) := by
  simp only [updateReadAnswered, extending, stage]

theorem updateWriteAnswered_error (extending : (d.streams.get st).extension = some e)
    (stage : e.stage = .updating current target) :
    updateWriteAnswered st .error d = streamFault st .descriptorUpdate 0 target d := by
  simp only [updateWriteAnswered, extending, stage]

theorem updateWriteAnswered_current {c : CurrentSegment} (extending : (d.streams.get st).extension = some e)
    (stage : e.stage = .updating true target) (current : (d.streams.get st).current = some c) :
    updateWriteAnswered st .done d = offer ⟨.descriptor st, lineOf e.descriptor, false, 0, 0⟩ (d.withStream st fun x => { x with
      current := some { c with contents := { c.contents with last := false, link := e.descriptor } }
      extension := some { e with stage := .fetching target }
      next := .fetching e.descriptor }) := by
  simp only [updateWriteAnswered, extending, stage, fetchDescriptor, Device.withStream, setStage, Stream.relink, current,
    Table.get_set, Table.set_set, Option.map_some]
  rfl

theorem updateWriteAnswered_held (extending : (d.streams.get st).extension = some e)
    (stage : e.stage = .updating false target) : updateWriteAnswered st .done d = streamDone st
      { kind := .commandDone, tag := e.tag, address := e.descriptor, second := target }
      (d.withStream st fun x => { x with extensionLink := some e.descriptor, extension := none }) := by
  simp only [updateWriteAnswered, extending, stage, extensionDone, Device.withStream, Table.get_set, Table.set_set]

end

/-- The READ of a descriptor update keeps its line's lock at the answer (R74). -/
theorem event_updateRead {s : State} {t : MemTag} {r : PortRequest} {st : StreamNo} {a : MemAnswer} {e : Device}
    (outstanding : Outstanding s.dev t r) (kind : wrongKind r a = false) (job : r.job = .updateRead st)
    (told : updateReadAnswered st r.line a (freeTag t s.dev) = e) :
    event (memoryAnswer t a) s = .next { s with dev := finish e } := by
  have owns : r.job.releasesAtAnswer = false := by rw [job]; rfl
  have tells : tellJob r a (freeTag t s.dev) = updateReadAnswered st r.line a (freeTag t s.dev) := by simp only [tellJob, job]
  rw [event_next, memoryAnswer_kept outstanding kind owns, tells, told]

/-! ## The line written back (Table 11-5) -/

section
variable {l : Line} {target link : Nat}

/-- A bit of the updated line: of the new link, of the cleared flag byte, or as read. -/
theorem updatedDescriptorLine_bit {o i : Nat} (offset : descriptorOffset target = o) (inside : i < 512) :
    (updatedDescriptorLine l target link).getLsbD i =
      if 8 * (o + 16) ≤ i ∧ i < 8 * (o + 24) then link.testBit (i - 8 * (o + 16))
      else if i = 8 * (o + 1) then false else l.getLsbD i := by
  have flags (j : Nat) : (bytesAt l (o + 1) 1 / 2 * 2).testBit j =
      (decide (1 ≤ j ∧ j < 8) && l.getLsbD (8 * (o + 1) + j)) := by
    cases j with
    | zero => simp [Nat.testBit_zero]
    | succ j =>
      rw [Nat.testBit_succ, Nat.mul_div_cancel _ (by decide), ← Nat.testBit_succ, testBit_bytesAt]
      simp
  simp only [updatedDescriptorLine, offset, BitVec.getLsbD_or, getLsbD_zeroed, getLsbD_layout, List.any_cons, List.any_nil,
    flags, inside, decide_true, Bool.true_and, Bool.or_false]
  split_ifs with isLink isLast
  · have first : 8 * (o + 16) ≤ i := isLink.1
    have past : i - 8 * (o + 1) ≥ 8 := by omega
    have near : i - 8 * (o + 16) < 8 * 8 := by omega
    have within : i < 8 * (o + 16) + 8 * 8 := by omega
    simp [first, near, within, show ¬ i - 8 * (o + 1) < 8 by omega]
  · subst isLast
    simp [show ¬ 8 * (o + 16) ≤ 8 * (o + 1) by omega]
  · by_cases flag : 8 * (o + 1) ≤ i ∧ i < 8 * (o + 1) + 8
    · have sum : 8 * (o + 1) + (i - 8 * (o + 1)) = i := by omega
      simp [flag.1, flag.2, sum, show ¬ 8 * (o + 16) ≤ i by omega, show 1 ≤ i - 8 * (o + 1) by omega,
        show i - 8 * (o + 1) < 8 by omega]
    · rcases Nat.lt_or_ge i (8 * (o + 1)) with before | after
      · simp [show ¬ 8 * (o + 16) ≤ i by omega, show ¬ 8 * (o + 1) ≤ i by omega]
      · have pastFlag : ¬ i - 8 * (o + 1) < 8 ∧ ¬ i < 8 * (o + 1) + 8 := by omega
        rcases Nat.lt_or_ge i (8 * (o + 16)) with between | beyond
        · simp [pastFlag, show ¬ 8 * (o + 16) ≤ i by omega]
        · simp [pastFlag, show ¬ i - 8 * (o + 16) < 64 by omega, show ¬ i < 8 * (o + 16) + 64 by omega]

theorem descriptorOffset_aligned (aligned : target % 32 = 0) : descriptorOffset target = target % 64 := by
  unfold descriptorOffset
  split_ifs <;> omega

theorem updatedDescriptorLine_spec (aligned : target % 32 = 0) (small : link < 2 ^ 64) :
    let o := target % 64
    let u := updatedDescriptorLine l target link
    bytesAt u (o + 0x10) 8 = link ∧ u.getLsbD (8 * (o + 1)) = false
    ∧ ∀ i < 512, i ≠ 8 * (o + 1) → (i < 8 * (o + 0x10) ∨ 8 * (o + 0x18) ≤ i) → u.getLsbD i = l.getLsbD i := by
  intro o u
  have within : o ≤ 32 := by omega
  have bit {i : Nat} (inside : i < 512) := updatedDescriptorLine_bit (l := l) (link := link) (descriptorOffset_aligned aligned) inside
  refine ⟨Nat.eq_of_testBit_eq fun j => ?_, ?_, fun i inside other outside => ?_⟩
  · rw [testBit_bytesAt]
    by_cases inside : j < 8 * 8
    · rw [decide_eq_true inside, Bool.true_and, bit (by omega), if_pos (by omega), Nat.add_sub_cancel_left]
    · have short : link < 2 ^ j := small.trans_le (Nat.pow_le_pow_right Nat.two_pos (show 64 ≤ j by omega))
      rw [decide_eq_false inside, Bool.false_and, Nat.testBit_lt_two_pow short]
  · rw [bit (by omega), if_neg (by omega), if_pos rfl]
  · rw [bit inside, if_neg (by omega), if_neg other]

end

/-! ## EXTEND taken (R73) -/

section
variable {d : Device} {st : StreamNo} {h : CmdHead} {descriptor : BitVec 64}

theorem descriptorPlaced_iff : descriptorPlaced descriptor = true ↔ descriptor.toNat % 32 = 0 ∧ descriptor.toNat < 2 ^ 40 := by
  simp only [descriptorPlaced, Bool.and_eq_true, decide_eq_true_eq]
  rfl

theorem running_iff {x : Stream} : x.running = true ↔ x.state = .active ∨ x.state = .exhausted := by
  simp [Stream.running]

/-- What EXTEND does once its arguments are good. -/
theorem runExtend_eq (target : targetStream h = some st) (placed : descriptorPlaced descriptor = true) :
    runExtend h descriptor d =
      if (d.streams.get st).extension ≠ none ∨ (d.streams.get st).state = .rollingBack ∨ (d.streams.get st).state = .resuming then
        refuse h .streamBusy d
      else if (d.streams.get st).state = .active ∨ (d.streams.get st).state = .exhausted
          ∨ (d.streams.get st).state = .detaching then
        d.withStream st fun x => { x with extension := some ⟨h.tag, descriptor.toNat, .choosing⟩ }
      else refuse h .streamState d := by
  simp only [runExtend, target, placed, Bool.not_true, Bool.false_eq_true, if_false, Bool.or_eq_true, beq_iff_eq, running_iff,
    Option.isSome_iff_ne_none, or_assoc]

theorem runExtend_badArgument (bad : ¬ (h.target.toNat < 4 ∧ descriptor.toNat % 32 = 0 ∧ descriptor.toNat < 2 ^ 40)) :
    runExtend h descriptor d = refuse h .badArgument d := by
  by_cases inside : h.target.toNat < 4
  · have target : targetStream h = some ⟨h.target.toNat, inside⟩ := targetStream_eq_some rfl
    have misplaced : descriptorPlaced descriptor = false := Bool.eq_false_iff.mpr fun placed =>
      bad ⟨inside, descriptorPlaced_iff.mp placed⟩
    simp only [runExtend, target, misplaced, Bool.not_false, if_true]
  · simp only [runExtend, targetStream_eq_none (Nat.not_lt.mp inside)]

end

/-- Settles O35: the choice of the target, the two answers of the update, the line's bits, and the checks of the command. -/
theorem extendProceeds : Obligations.ExtendProceeds := by
  unfold Obligations.ExtendProceeds
  refine ⟨fun s st x e stream extending => ⟨fun stage entered => ?_, fun t r current target outstanding stage => ?_⟩,
    fun l target link aligned small => updatedDescriptorLine_spec aligned small, fun s h descriptor taking => ?_⟩
  · subst stream
    refine ⟨fun c current absent => ?_, fun a c held => ?_⟩
    · have fetched : (s.dev.streams.get st).fetching = false := by simp [Stream.fetching, absent]
      have step := tryExtendTargetChoice_choosing extending stage entered fetched
      rw [chooseTarget_absent current absent, startUpdate_eq extending] at step
      exact (exec_extendTargetChoice _ _).trans (innerEvent_done step)
    · have fetched : (s.dev.streams.get st).fetching = false := by simp [Stream.fetching, held]
      have step := tryExtendTargetChoice_choosing extending stage entered fetched
      rw [chooseTarget_held held, startUpdate_eq extending] at step
      exact (exec_extendTargetChoice _ _).trans (innerEvent_done step)
  · subst stream
    have extending' : ((returned t r s.dev).streams.get st).extension = some e := extending
    have writes (job : r.job = .updateWrite st) : r.job.releasesAtAnswer = true := by rw [job]; rfl
    have told (job : r.job = .updateWrite st) (m : MemAnswer) :
        tellJob r m (returned t r s.dev) = updateWriteAnswered st m (returned t r s.dev) := by simp only [tellJob, job]
    refine ⟨fun l job read => ?_, fun job read state lost => ?_, fun handling => ⟨fun job read => ?_, fun job write => ?_⟩,
      fun job write => ⟨fun isCurrent c present => ?_, fun isHeld => ?_, fun state lost => ?_⟩⟩
    · exact event_updateRead outstanding read job (updateReadAnswered_data (d := freeTag t s.dev) extending stage l)
    · exact event_updateRead outstanding rfl job ((updateReadAnswered_error (d := freeTag t s.dev) extending stage).trans
        (streamFault_lost (d := returned t r s.dev) state lost))
    · exact event_updateRead outstanding rfl job ((updateReadAnswered_error (d := freeTag t s.dev) extending stage).trans
        (streamFault_dropped (d := returned t r s.dev) handling))
    · exact event_error outstanding (writes job) ((told job .error).trans
        ((updateWriteAnswered_error extending' stage).trans (streamFault_dropped handling)))
    · subst isCurrent
      exact event_done outstanding write (writes job) ((told job .done).trans
        (updateWriteAnswered_current extending' stage present))
    · subst isHeld
      exact event_done outstanding write (writes job) ((told job .done).trans (updateWriteAnswered_held extending' stage))
    · exact event_error outstanding (writes job) ((told job .error).trans
        ((updateWriteAnswered_error extending' stage).trans (streamFault_lost state lost)))
  · intro d refused good
    refine ⟨fun bad => ?_, fun ⟨inside, aligned, small⟩ st target => ?_⟩
    · exact (exec_extend _ _ _).trans (event_taken taking (runExtend_badArgument bad))
    · have run := runExtend_eq (d := d) (targetStream_eq_some target) (descriptorPlaced_iff.mpr ⟨aligned, small⟩)
      intro x busy
      refine ⟨fun occupied => ?_, fun free notActive notExhausted notDetaching => ?_, fun free able => ?_⟩
      · exact (exec_extend _ _ _).trans (event_taken taking (run.trans (if_pos occupied)))
      · have unable : ¬ (x.state = .active ∨ x.state = .exhausted ∨ x.state = .detaching) := by
          simp [notActive, notExhausted, notDetaching]
        exact (exec_extend _ _ _).trans (event_taken taking (run.trans ((if_neg free).trans (if_neg unable))))
      · exact (exec_extend _ _ _).trans (event_taken taking (run.trans ((if_neg free).trans (if_pos able))))

end Sys2Proof.Proofs

/-! PROOF. ATTACH taken (R33, R128, R129). Statement `Obligations.AttachTaken`. -/
namespace Sys2Proof.Proofs
open Sys2Proof Sys2Proof.Machine

section
variable {d : Device} {st : StreamNo} {h : CmdHead} {policy stall : BitVec 8} {label : BitVec 32} {anchor first : BitVec 64}

/-! ## The checks -/

theorem anchorPlaced_iff : anchorPlaced d anchor = true ↔ anchor.toNat % 2048 = 0 ∧ anchor.toNat < 2 ^ 40
    ∧ (windowBase d.winsel + 4096 ≤ anchor.toNat ∨ anchor.toNat + 2048 ≤ windowBase d.winsel) := by
  have outside : meetsWindow d.winsel anchor.toNat 2048 = false ↔
      windowBase d.winsel + 4096 ≤ anchor.toNat ∨ anchor.toNat + 2048 ≤ windowBase d.winsel := by
    rw [Bool.eq_false_iff, ne_eq, meetsWindow_iff, not_and_or, Nat.not_lt, Nat.not_lt]
  simp only [anchorPlaced, Bool.and_eq_true, Bool.not_eq_true', decide_eq_true_eq, outside, and_assoc]
  rfl

theorem busy_iff {x : Stream} : x.busy = true ↔ ¬ Unoccupied x := by
  simp only [Stream.busy, Unoccupied, Bool.or_eq_true, beq_iff_eq, Option.isSome_iff_ne_none, not_and_or, ne_eq, not_not, or_assoc]

theorem attached_iff {x : Stream} : x.attached = true ↔ x.state ≠ .detached := by simp [Stream.attached]

/-- The answers of an ATTACH with good arguments, in the order of its checks (R128). -/
def attachJudged (h : CmdHead) (x : Stream) (taken d : Device) : Device :=
  if x.busy then refuse h .streamBusy d else if x.attached then refuse h .streamState d else taken

theorem attachJudged_busy {x : Stream} {taken : Device} (occupied : ¬ Unoccupied x) :
    attachJudged h x taken d = refuse h .streamBusy d := if_pos (busy_iff.mpr occupied)

theorem attachJudged_attached {x : Stream} {taken : Device} (free : Unoccupied x) (attached : x.state ≠ .detached) :
    attachJudged h x taken d = refuse h .streamState d := by
  have idle : ¬ x.busy = true := fun busy => busy_iff.mp busy free
  rw [attachJudged, if_neg idle, if_pos (attached_iff.mpr attached)]

theorem attachJudged_taken {x : Stream} {taken : Device} (free : Unoccupied x) (detached : x.state = .detached) :
    attachJudged h x taken d = taken := by
  have idle : ¬ x.busy = true := fun busy => busy_iff.mp busy free
  have unattached : ¬ x.attached = true := fun attached => attached_iff.mp attached detached
  rw [attachJudged, if_neg idle, if_neg unattached]

theorem runAttachResume_eq (target : targetStream h = some st) (placed : anchorPlaced d anchor = true) :
    runAttachResume h anchor d = attachJudged h (d.streams.get st) (takeResume st h.tag anchor.toNat d) d := by
  simp only [runAttachResume, target, placed, Bool.not_true, Bool.false_eq_true, if_false]
  rfl

theorem runAttachFresh_eq (target : targetStream h = some st) (placed : anchorPlaced d anchor = true)
    (firstPlaced : descriptorPlaced first = true) (known : policy.toNat ≤ 1) (limited : stall.toNat ≤ 11) :
    runAttachFresh h policy stall label anchor first d = attachJudged h (d.streams.get st)
      (takeFresh st h.tag (Policy.ofCode policy.toNat) (stallOfCode stall.toNat) label anchor.toNat first.toNat d) d := by
  simp only [runAttachFresh, target, placed, firstPlaced, known, limited, decide_true, Bool.and_self, Bool.not_true,
    Bool.false_eq_true, if_false]
  rfl

theorem runAttachResume_badArgument (bad : ∀ st, targetStream h = some st → anchorPlaced d anchor = false) :
    runAttachResume h anchor d = refuse h .badArgument d := by
  cases target : targetStream h with
  | none => simp only [runAttachResume, target]
  | some st => simp only [runAttachResume, target, bad st target, Bool.not_false, if_true]

theorem runAttachFresh_badArgument (bad : ∀ st, targetStream h = some st →
      (anchorPlaced d anchor && descriptorPlaced first && decide (policy.toNat ≤ 1) && decide (stall.toNat ≤ 11)) = false) :
    runAttachFresh h policy stall label anchor first d = refuse h .badArgument d := by
  cases target : targetStream h with
  | none => simp only [runAttachFresh, target]
  | some st => simp only [runAttachFresh, target, bad st target, Bool.not_false, if_true]

/-! ## What the taking does -/

theorem copyAddress_eq (base : Nat) (c : Copy) : copyAddress base c = base + if c = .a then 0 else 1024 := by
  cases c <;> rfl

theorem anchorReads_eq (address : Nat) : anchorReads st address =
    [Copy.a, Copy.b].flatMap fun c => (List.finRange 16).map fun i =>
      ⟨.anchorRead st c i, address + (if c = .a then 0 else 1024) + 64 * i.1, false, 0, 0⟩ := by
  simp only [anchorReads, copyAddress_eq]
  rfl

/-- Anchor reads are offered only with no invalidation of the stream's earlier life left (R128). -/
def readsFor (st : StreamNo) (address : Nat) (x : Stream) : List PortRequest :=
  if x.invalidation = .none then
    [Copy.a, Copy.b].flatMap fun c => (List.finRange 16).map fun i =>
      ⟨.anchorRead st c i, address + (if c = .a then 0 else 1024) + 64 * i.1, false, 0, 0⟩
  else []

theorem offerAnchorReads_eq {a : Attach} (attach : (d.streams.get st).attach = some a) (unread : a.readsOffered = false)
    (sound : a.failed = false) : offerAnchorReads st d =
      offerAll (readsFor st (d.streams.get st).anchorAddress (d.streams.get st)) (d.withStream st fun x => { x with
        attach := some { a with readsOffered := decide (x.invalidation = .none) } }) := by
  by_cases clear : (d.streams.get st).invalidation = .none
  · simp only [offerAnchorReads, attach, unread, sound, clear, and_self, if_true, readsFor, anchorReads_eq, Device.withAttach,
      Device.withStream, Option.map_some, decide_true]
  · have same : ({ a with readsOffered := false } : Attach) = a := by rw [← unread]
    have unchanged : d.withStream st (fun x => { x with
        attach := some { a with readsOffered := decide (x.invalidation = .none) } }) = d := by
      refine withStream_same ?_
      simp only [clear, decide_false, same, ← attach]
    rw [unchanged]
    simp only [offerAnchorReads, attach, clear, false_and, if_false, readsFor, offerAll, List.foldl_nil]

/-- The context that an ATTACH RESUME begins with (R128). -/
theorem takeResume_eq (tag : BitVec 16) (address : Nat) : takeResume st tag address d =
    offerAll (readsFor st address (d.streams.get st)) (d.withStream st fun x => { x with
      state := .resuming
      anchorAddress := address
      operation := some ⟨.attach, tag, 0, 0, 0, 0, 0⟩
      attach := some { Attach.start false 0 with readsOffered := decide (x.invalidation = .none) } }) := by
  rw [takeResume, offerAnchorReads_eq (congrArg Stream.attach (withStream_get ..)) rfl rfl, withStream_withStream, withStream_get]
  rfl

/-- The context that an ATTACH FRESH begins with, and its requests in ascending address (R33, R128, R129). -/
theorem takeFresh_eq (tag : BitVec 16) (p : Policy) (limit : Option Nat) (address firstAddress : Nat) :
    takeFresh st tag p limit label address firstAddress d =
      offerAll (byAddress ⟨.firstDescriptor st, lineOf firstAddress, false, 0, 0⟩ (readsFor st address (d.streams.get st)))
        (d.withStream st fun x => { x with
          state := .opening, anchorAddress := address, policy := p, stallLimit := limit, epoch := some 1
          operation := some ⟨.attach, tag, 1, label, 0, 0, 0⟩, pendingMark := some ⟨1, label, tag, none⟩
          nextSequence := some 1, committed := some 0
          attach := some { Attach.start true firstAddress with readsOffered := decide (x.invalidation = .none) } }) := by
  simp only [takeFresh, withStream_get, anchorReads_eq]
  rfl

theorem policyOfCode_eq (known : policy.toNat ≤ 1) : Policy.ofCode policy.toNat = if policy = 1 then .breakStream else .stall := by
  rcases Nat.le_one_iff_eq_zero_or_eq_one.mp known with zero | one
  · have code : policy = 0 := BitVec.eq_of_toNat_eq zero
    rw [code]
    rfl
  · have code : policy = 1 := BitVec.eq_of_toNat_eq one
    rw [code]
    rfl

end

/-- Settles O36: the arguments, then the operation slot, the stream's state, and the taking. -/
theorem attachTaken : Obligations.AttachTaken := by
  unfold Obligations.AttachTaken
  intro s h policy stall label anchor first taking fresh resume d refused placed placedFresh
  refine ⟨fun bad => ?_, fun bad => ?_, fun ⟨inside, anchored⟩ st target => ?_⟩
  · refine (exec_attachResume _ _ _).trans (event_taken taking (runAttachResume_badArgument fun st target => ?_))
    refine Bool.eq_false_iff.mpr fun good => bad ⟨?_, anchorPlaced_iff.mp good⟩
    exact Nat.lt_of_not_le fun outside => by rw [targetStream_eq_none outside] at target; cases target
  · refine (exec_attachFresh _ _ _ _ _ _ _).trans (event_taken taking (runAttachFresh_badArgument fun st target => ?_))
    refine Bool.eq_false_iff.mpr fun good => bad ?_
    simp only [Bool.and_eq_true, decide_eq_true_eq] at good
    obtain ⟨⟨⟨anchored, firstPlaced⟩, known⟩, limited⟩ := good
    obtain ⟨aligned, small⟩ := descriptorPlaced_iff.mp firstPlaced
    refine ⟨⟨?_, anchorPlaced_iff.mp anchored⟩, aligned, small, known, limited⟩
    exact Nat.lt_of_not_le fun outside => by rw [targetStream_eq_none outside] at target; cases target
  · have resumes {e : Device} (judged : attachJudged h (s.dev.streams.get st) (takeResume st h.tag anchor.toNat d) d = e) :
        resume = .next { s with dev := finish e } :=
      (exec_attachResume _ _ _).trans (event_taken taking ((runAttachResume_eq (d := d) (targetStream_eq_some target)
        (anchorPlaced_iff.mpr anchored)).trans judged))
    have freshens (good : placedFresh) {e : Device} (judged : attachJudged h (s.dev.streams.get st)
        (takeFresh st h.tag (if policy = 1 then .breakStream else .stall) (stallOfCode stall.toNat) label anchor.toNat
          first.toNat d) d = e) : fresh = .next { s with dev := finish e } := by
      obtain ⟨_, aligned, small, known, limited⟩ := good
      rw [← policyOfCode_eq known] at judged
      exact (exec_attachFresh _ _ _ _ _ _ _).trans (event_taken taking ((runAttachFresh_eq (d := d) (targetStream_eq_some target)
        (anchorPlaced_iff.mpr anchored) (descriptorPlaced_iff.mpr ⟨aligned, small⟩) known limited).trans judged))
    refine ⟨fun occupied => ⟨resumes (attachJudged_busy occupied), fun good => freshens good (attachJudged_busy occupied)⟩,
      fun free attached => ⟨resumes (attachJudged_attached free attached), fun good =>
        freshens good (attachJudged_attached free attached)⟩,
      fun free detached => ⟨resumes ((attachJudged_taken free detached).trans (takeResume_eq _ _)), fun good =>
        freshens good ((attachJudged_taken free detached).trans (takeFresh_eq _ _ _ _ _))⟩⟩

end Sys2Proof.Proofs

/-! PROOF. The anchor logic's writes (R33, R90, R125, R126, R163, R167) and the answers to their lines. Statement
`Obligations.AnchorWriteIssued`. -/
namespace Sys2Proof.Proofs
open Sys2Proof Sys2Proof.Machine

/-! ## The issue -/

section
variable {d : Device} {st : StreamNo} {x : Stream} {w : AnchorOffer}

theorem copyAddress_other (base : Nat) (c : Copy) : copyAddress base c.other = if c = .a then base + 1024 else base := by
  cases c <;> rfl

theorem other_eq (c : Copy) : c.other = if c = .a then .b else .a := by cases c <;> rfl

theorem anchorWrites_eq (address : Nat) (image : BitVec 8192) : anchorWrites st address image =
    (List.finRange 16).map fun i => ⟨.anchorWrite st i, address + 64 * i.1, true, BitVec.allOnes 64,
      image.extractLsb' (512 * i.1) 512⟩ := by
  simp only [anchorWrites, writeOf, fullMask_eq]
  rfl

theorem anchorIssuable_frozen {v : Nat × AnchorContents} (frozen : w.frozen = some v) : anchorIssuable d x w = true ↔
    x.anchorOutstanding = none ∧ (d.check.state = .normal ∨ .check ∈ w.occasions) := by
  simp [anchorIssuable, frozen, normal_iff]

theorem anchorIssuable_live {h : Segment} (live : w.frozen = none) (history : x.history.getLast? = some h) :
    anchorIssuable d x w = true ↔ x.anchorOutstanding = none ∧ h.first ≤ x.committed.getD 0 + 1
      ∧ (d.check.state = .normal ∨ .check ∈ w.occasions) := by
  simp [anchorIssuable, live, history, normal_iff, and_assoc]

theorem anchorIssuable_bars (bars : x.anchorOutstanding ≠ none ∨ (d.check.state ≠ .normal ∧ .check ∉ w.occasions)) :
    anchorIssuable d x w = false := by
  have others : ¬ (x.anchorOutstanding = none ∧ (d.check.state = .normal ∨ .check ∈ w.occasions)) := by tauto
  refine Bool.eq_false_iff.mpr fun issuable => others ?_
  simp only [anchorIssuable, Bool.and_eq_true, Bool.or_eq_true, Option.isNone_iff_eq_none, normal_iff, List.contains_iff_mem]
    at issuable
  obtain ⟨⟨free, _⟩, allowed⟩ := issuable
  exact ⟨free, allowed⟩

/-- A waiting write issued with the given base and contents, to the copy other than the newest (R126). -/
def anchorIssued (st : StreamNo) (x : Stream) (w : AnchorOffer) (base : Nat) (c : AnchorContents) (d : Device) : Device :=
  let copy : Copy := if x.newest = .a then .b else .a
  let address := if x.newest = .a then base + 1024 else base
  offerAll ((List.finRange 16).map fun i => ⟨.anchorWrite st i, address + 64 * i.1, true, BitVec.allOnes 64,
      (anchorImage c (x.generation + 1)).extractLsb' (512 * i.1) 512⟩)
    { d with streams := d.streams.set st { x with
      anchorWaiting := none
      anchorOutstanding := some ⟨w.occasions, copy, address, x.generation + 1, 0⟩
      invalidation := if (lossEpoch w.occasions).isSome = true then .outstanding else x.invalidation
      freed := x.freed.map fun f => if f.anchor = .waiting then { f with anchor := .outstanding } else f } }

theorem tryAnchorWriteIssue_issues (waiting : (d.streams.get st).anchorWaiting = some w)
    (issuable : anchorIssuable d (d.streams.get st) w = true) : tryAnchorWriteIssue st d =
      some (anchorIssued st (d.streams.get st) w ((w.frozen.map (·.1)).getD (d.streams.get st).anchorAddress)
        ((w.frozen.map (·.2)).getD (anchorContents (d.streams.get st) w.occasions)) d) := by
  have address : anchorTarget (d.streams.get st) w =
      if (d.streams.get st).newest = .a then (w.frozen.map (·.1)).getD (d.streams.get st).anchorAddress + 1024
      else (w.frozen.map (·.1)).getD (d.streams.get st).anchorAddress := copyAddress_other _ _
  simp only [tryAnchorWriteIssue, waiting, issuable, if_true, address, other_eq, anchorWrites_eq]
  rfl

theorem tryAnchorWriteIssue_waits (waiting : (d.streams.get st).anchorWaiting = some w)
    (bars : anchorIssuable d (d.streams.get st) w = false) : tryAnchorWriteIssue st d = none := by
  simp only [tryAnchorWriteIssue, waiting, bars, Bool.false_eq_true, if_false]

theorem anchorContents_eq (x : Stream) (occasions : List Occasion) : anchorContents x occasions =
    { stamp := x.stamp
      cleanDetach := decide (.detach ∈ occasions)
      invalidated := false
      rollbackPending := (pendingTarget occasions).isSome
      target := (pendingTarget occasions).getD 0
      epoch := x.epoch.getD 0 - (if x.pendingMark = none then 0 else 1)
      nextSequence := x.committed.getD 0 + 1
      marks := x.marks
      history := x.history
      policy := x.policy
      stallLimit := x.stallLimit } := by
  simp only [anchorContents, List.contains_eq_mem]
  cases x.pendingMark <;> rfl

/-! ## The order of the issues of one event (R33) -/

/-- The address that a stream's waiting write goes to. -/
def dueAddress (x : Stream) : Nat :=
  if x.newest = .a then (match x.anchorWaiting with | some ⟨_, some (a, _)⟩ => a | _ => x.anchorAddress) + 1024
  else match x.anchorWaiting with | some ⟨_, some (a, _)⟩ => a | _ => x.anchorAddress

theorem anchorTarget_eq (waiting : x.anchorWaiting = some w) : anchorTarget x w = dueAddress x := by
  obtain ⟨occasions, frozen⟩ := w
  rw [anchorTarget, copyAddress_other, dueAddress, waiting]
  cases frozen <;> rfl

theorem anchorDue_iff {a : Nat} : anchorDue d st = some a ↔
    (tryAnchorWriteIssue st d).isSome = true ∧ a = dueAddress (d.streams.get st) := by
  cases waiting : (d.streams.get st).anchorWaiting with
  | none => simp [anchorDue, tryAnchorWriteIssue, waiting]
  | some w =>
    by_cases issuable : anchorIssuable d (d.streams.get st) w = true
    · simp only [anchorDue, tryAnchorWriteIssue, waiting, issuable, if_true, anchorTarget_eq waiting, Option.some.injEq,
        Option.isSome_some, true_and]
      exact eq_comm
    · simp [anchorDue, tryAnchorWriteIssue, waiting, issuable]

/-- The order of addresses, and of two at one address the lower stream first. -/
def DueBefore (p q : Nat × StreamNo) : Prop := p.1 ≤ q.1 ∧ (p.1 = q.1 → p.2 ≤ q.2)

/-- Of writes in ascending stream the first in that order is found. -/
theorem foldl_lowerDue (l : List (Nat × StreamNo)) (b : Nat × StreamNo) (above : ∀ p ∈ l, b.2 ≤ p.2)
    (ascending : l.Pairwise fun p q => p.2 ≤ q.2) :
    ∃ q ∈ b :: l, l.foldl lowerDue (some b) = some q ∧ ∀ p ∈ b :: l, DueBefore q p := by
  induction l generalizing b with
  | nil => exact ⟨b, List.mem_singleton.mpr rfl, rfl, fun p mem => List.mem_singleton.mp mem ▸ ⟨Nat.le_refl _, fun _ => le_refl _⟩⟩
  | cons p rest ih =>
    obtain ⟨first, others⟩ := List.pairwise_cons.mp ascending
    by_cases lower : p.1 < b.1
    · obtain ⟨q, mem, found, least⟩ := ih p first others
      refine ⟨q, List.mem_cons_of_mem _ mem, ?_, fun r isIn => ?_⟩
      · rw [List.foldl_cons, lowerDue, if_pos lower, found]
      · rcases List.mem_cons.mp isIn with same | later
        · obtain ⟨le, _⟩ := least p List.mem_cons_self
          exact same ▸ ⟨by omega, fun eq => by omega⟩
        · exact least r later
    · obtain ⟨q, mem, found, least⟩ := ih b (fun r isIn => above r (List.mem_cons_of_mem _ isIn)) others
      refine ⟨q, ?_, ?_, fun r isIn => ?_⟩
      · rcases List.mem_cons.mp mem with same | later
        · exact same ▸ List.mem_cons_self
        · exact List.mem_cons_of_mem _ (List.mem_cons_of_mem _ later)
      · rw [List.foldl_cons, lowerDue, if_neg lower, found]
      · rcases List.mem_cons.mp isIn with same | later
        · exact least r (same ▸ List.mem_cons_self)
        · rcases List.mem_cons.mp later with same | farther
          · obtain ⟨le, tie⟩ := least b List.mem_cons_self
            have lower_p : b.2 ≤ p.2 := above p List.mem_cons_self
            exact same ▸ ⟨by omega, fun eq => (tie (by omega)).trans lower_p⟩
          · exact least r (List.mem_cons_of_mem _ farther)

theorem mem_due {p : Nat × StreamNo} : p ∈ ((indices 4).filterMap fun s => (anchorDue d s).map fun a => (a, s)) ↔
    anchorDue d p.2 = some p.1 := by
  simp only [List.mem_filterMap, indices, List.mem_finRange, true_and, Option.map_eq_some_iff]
  exact ⟨fun ⟨s, a, due, eq⟩ => eq ▸ due, fun due => ⟨p.2, p.1, due, rfl⟩⟩

/-- Where a write is due, the one at the lowest address is issued. -/
theorem nextAnchorIssue_least {a : Nat} (due : anchorDue d st = some a) : ∃ first b, nextAnchorIssue d = some first
    ∧ anchorDue d first = some b ∧ ∀ p, anchorDue d p.2 = some p.1 → DueBefore (b, first) p := by
  have ascending : ((indices 4).filterMap fun s => (anchorDue d s).map fun a => (a, s)).Pairwise fun p q => p.2 ≤ q.2 := by
    refine List.Pairwise.filterMap _ (R := (· ≤ ·)) (fun s t le p mem q isIn => ?_) ?_
    · obtain ⟨_, _, rfl⟩ := Option.map_eq_some_iff.mp mem
      obtain ⟨_, _, rfl⟩ := Option.map_eq_some_iff.mp isIn
      exact le
    · exact (List.pairwise_lt_finRange 4).imp le_of_lt
  have isDue : (a, st) ∈ ((indices 4).filterMap fun s => (anchorDue d s).map fun a => (a, s)) := mem_due.mpr due
  have members (p : Nat × StreamNo) := mem_due (d := d) (p := p)
  have found : nextAnchorIssue d =
    (((indices 4).filterMap fun s => (anchorDue d s).map fun a => (a, s)).foldl lowerDue none).map (·.2) := rfl
  revert ascending isDue members found
  generalize ((indices 4).filterMap fun s => (anchorDue d s).map fun a => (a, s)) = l
  intro ascending isDue members found
  cases l with
  | nil => cases isDue
  | cons b rest =>
    obtain ⟨above, others⟩ := List.pairwise_cons.mp ascending
    obtain ⟨q, mem, chosen, least⟩ := foldl_lowerDue rest b above others
    refine ⟨q.2, q.1, ?_, (members q).mp mem, fun p isIn => least p ((members p).mpr isIn)⟩
    rw [found, List.foldl_cons]
    exact congrArg (Option.map _) chosen

theorem firstOf_none {n : Nat} {f : Fin n → Device → Option Device} (all : ∀ i, f i d = none) : firstOf f d = none :=
  List.findSome?_eq_none_iff.mpr fun i _ => all i

/-- Once what precedes the anchor writes is done, the first of them is the next inner step (log 2). -/
theorem innerStep_anchorIssue {first : StreamNo} {e : Device} (path : pathStep d = none)
    (queue : ∀ k, trySlotQueueService k d = none) (place : ∀ st, tryRecordPlacement st d = none)
    (choice : ∀ st, tryExtendTargetChoice st d = none) (handoff : tryEngineClaimHandoff d = none)
    (resumed : tryResumedHoldingEnd d = none) (held : tryHoldingEnd d = none) (final : ∀ st, tryDetachFinalAnchor st d = none)
    (next : nextAnchorIssue d = some first) (issues : tryAnchorWriteIssue first d = some e) :
    innerStep d = tryAnchorWriteIssue first d := by
  rw [innerStep, streamStep, path, firstOf_none queue, firstOf_none place, firstOf_none choice, handoff, resumed, held,
    firstOf_none final, next, Option.bind_some, issues]
  rfl

end

/-! ## The freed list is tested (R90) -/

section
variable {d : Device} {st : StreamNo}

theorem settled_iff {committed : Option Nat} {f : FreedSegment} : f.settled committed = true ↔
    f.anchor = .acknowledged ∧ ∃ c, committed = some c ∧ f.last ≤ c := by
  simp only [FreedSegment.settled, Bool.and_eq_true, beq_iff_eq, Option.any_eq_true, decide_eq_true_eq]

theorem testFreed_eq {settled kept : List FreedSegment} (freed : (d.streams.get st).freed = settled ++ kept)
    (all : ∀ f ∈ settled, f.settled (d.streams.get st).committed = true)
    (stop : ∀ f, kept.head? = some f → f.settled (d.streams.get st).committed = false) :
    testFreed st d = settled.foldl (fun d' f => pushReport (freedReport st (d.streams.get st) f) d')
      (d.withStream st fun x => { x with freed := kept }) := by
  have none_left : kept.takeWhile (FreedSegment.settled (d.streams.get st).committed) = []
      ∧ kept.dropWhile (FreedSegment.settled (d.streams.get st).committed) = kept := by
    cases kept with
    | nil => exact ⟨rfl, rfl⟩
    | cons f rest => simp [stop f rfl]
  obtain ⟨taken, dropped⟩ := none_left
  simp only [testFreed, freed, List.takeWhile_append_of_pos all, List.dropWhile_append_of_pos all, taken, dropped,
    List.append_nil, Device.withStream]

theorem testFreed_operation : ((testFreed st d).streams.get st).operation = (d.streams.get st).operation := by
  rw [testFreed_streams, Table.get_set]

/-! ## The Check Unit after an anchor write (R167) -/

theorem invalidationsDone_iff : invalidationsDone d = true ↔ ∀ i, d.check.stages.get i = .none := by
  have sized := d.check.stages.size
  simp only [invalidationsDone, List.all_eq_true, beq_iff_eq]
  refine ⟨fun all i => all _ (List.getElem_mem _), fun each g mem => ?_⟩
  obtain ⟨i, inside, rfl⟩ := List.mem_iff_getElem.mp mem
  exact each ⟨i, sized ▸ inside⟩

theorem offerInvalidation_state : (offerInvalidation st d).check.state = d.check.state := by
  rw [offerInvalidation]
  split <;> rfl

theorem checkAfterAnchor_other (other : d.check.state ≠ .invalidate) : checkAfterAnchor st d = d := by
  simp [checkAfterAnchor, invalidationEnd, other]

/-- The stream's own invalidation follows the write that was awaited. -/
def afterAwaited (st : StreamNo) (d : Device) : Device :=
  if d.check.stages.get st = .awaiting then offerInvalidation st d else d

theorem checkAfterAnchor_invalidate (state : d.check.state = .invalidate) : checkAfterAnchor st d =
    if invalidationsDone (afterAwaited st d) = true then enterClose (afterAwaited st d) else afterAwaited st d := by
  have still : (afterAwaited st d).check.state = .invalidate := by
    rw [afterAwaited]
    split
    · rw [offerInvalidation_state, state]
    · exact state
  have step : checkAfterAnchor st d = invalidationEnd (afterAwaited st d) := by
    simp only [checkAfterAnchor, afterAwaited, state, true_and]
  rw [step, invalidationEnd, still]
  simp only [decide_true, Bool.true_and]

/-! ## The answers to the lines of an anchor write (R126) -/

theorem anchorWriteOf_eq : isAnchorWriteOf st = fun j => (List.finRange 16).any fun i => j == .anchorWrite st i := by
  funext j
  rw [Bool.eq_iff_iff, List.any_eq_true]
  refine ⟨fun named => ?_, fun ⟨i, _, same⟩ => ?_⟩
  · cases j with
    | anchorWrite s i => exact ⟨i, List.mem_finRange i, by rw [beq_iff_eq.mp named]; exact beq_self_eq_true _⟩
    | _ => cases named
  · rw [beq_iff_eq.mp same]
    exact beq_self_eq_true st

variable {w : AnchorWrite}

theorem anchorLineAnswered_counts (outstanding : (d.streams.get st).anchorOutstanding = some w) (before : w.acknowledged < 15) :
    anchorLineAnswered st .done d =
      d.withStream st fun x => { x with anchorOutstanding := some { w with acknowledged := w.acknowledged + 1 } } := by
  simp only [anchorLineAnswered, outstanding, if_neg (show ¬ w.acknowledged + 1 = 16 by omega)]

theorem anchorLineAnswered_last (outstanding : (d.streams.get st).anchorOutstanding = some w) (last : w.acknowledged = 15) :
    anchorLineAnswered st .done d = anchorDone st w d := by
  simp only [anchorLineAnswered, outstanding, last, if_true]

theorem anchorLineAnswered_error (outstanding : (d.streams.get st).anchorOutstanding = some w) :
    anchorLineAnswered st .error d = anchorFailed st w d := by
  simp only [anchorLineAnswered, outstanding]

theorem isAttachWrite_iff {x : Stream} : isAttachWrite x w = true ↔
    (x.state = .opening ∨ x.state = .resuming) ∧ w.occasions ≠ [] ∧ lossEpoch w.occasions = none ∧ .check ∉ w.occasions := by
  simp [isAttachWrite, and_assoc]

theorem endAttach_check (status : Status) (second sequence address : Nat) :
    (endAttach st status second sequence address d).check = d.check := by
  have kept : (abandonAttach st d).check = d.check := by
    rw [abandonAttach]
    split
    · exact abandon_check _ _
    · exact (abandon_check _ _).trans (abandon_check _ _)
  have dropped : (dropResume st (abandonAttach st d)).check = d.check := by
    rw [dropResume_eq]
    exact kept
  rw [endAttach, streamDone_check]
  exact dropped

/-- The stream without its outstanding write. -/
def withoutWrite (st : StreamNo) (d : Device) : Device := d.withStream st fun x => { x with anchorOutstanding := none }

/-- The other lines of a failed write, unless it is an ATTACH's, are still written, their answers discarded (log 34). -/
def stillWritten (st : StreamNo) (d : Device) : Device := discardLater (isAnchorWriteOf st) (withoutWrite st d)

theorem stillWritten_streams : (stillWritten st d).streams = (withoutWrite st d).streams := rfl

theorem stillWritten_check : (stillWritten st d).check = d.check := rfl

theorem withoutWrite_state : ((withoutWrite st d).streams.get st).state = (d.streams.get st).state := by
  rw [withoutWrite, withStream_get]

theorem dropAnchorLines_attach (attach : isAttachWrite (d.streams.get st) w = true) :
    dropAnchorLines st w (withoutWrite st d) = abandon (isAnchorWriteOf st) (withoutWrite st d) := by
  refine if_pos ?_
  rw [isAttachWrite_iff] at attach ⊢
  rw [withoutWrite_state]
  exact attach

theorem dropAnchorLines_other (other : isAttachWrite (d.streams.get st) w ≠ true) :
    dropAnchorLines st w (withoutWrite st d) = stillWritten st d := by
  refine if_neg ?_
  rw [ne_eq, isAttachWrite_iff] at other
  rw [isAttachWrite_iff, withoutWrite_state]
  exact other

theorem anchorFailed_eq : anchorFailed st w d =
    checkAfterAnchor st (anchorOutcome st w (dropAnchorLines st w (withoutWrite st d))) := rfl

theorem anchorFailed_loss (loss : lossEpoch w.occasions ≠ none) : anchorFailed st w d =
    checkAfterAnchor st (deviceCheckFor (some st) .invalidationWrite .none (stillWritten st d)) := by
  have other : isAttachWrite (d.streams.get st) w ≠ true := fun attach => loss (isAttachWrite_iff.mp attach).2.2.1
  rw [anchorFailed_eq, dropAnchorLines_other other, anchorOutcome, if_pos (Option.isSome_iff_ne_none.mpr loss)]

theorem anchorFailed_check (unlost : lossEpoch w.occasions = none) (check : .check ∈ w.occasions) : anchorFailed st w d =
    checkAfterAnchor st (setInvalidation st .notInvalidated .none (stillWritten st d)) := by
  have other : isAttachWrite (d.streams.get st) w ≠ true := fun attach => (isAttachWrite_iff.mp attach).2.2.2 check
  rw [anchorFailed_eq, dropAnchorLines_other other, anchorOutcome, if_neg (by simp [unlost]),
    if_pos (List.contains_iff_mem.mpr check)]

theorem anchorFailed_unowned (unowned : w.occasions = []) : anchorFailed st w d = checkAfterAnchor st (stillWritten st d) := by
  have other : isAttachWrite (d.streams.get st) w ≠ true := fun attach => (isAttachWrite_iff.mp attach).2.1 unowned
  rw [anchorFailed_eq, dropAnchorLines_other other, anchorOutcome, unowned]
  rfl

theorem anchorOutcome_fault {o : Occasion} {os : List Occasion} (owned : w.occasions = o :: os)
    (unlost : lossEpoch w.occasions = none) (unchecked : .check ∉ w.occasions) :
    anchorOutcome st w d = streamFault st .anchorWrite 0 w.address d := by
  rw [anchorOutcome, if_neg (by simp [unlost]), if_neg (mt List.contains_iff_mem.mp unchecked), if_neg (by simp [owned])]

/-- A failed write of a stream's own while no device check is handled: the check does as its state says. -/
theorem anchorFailed_lost {o : Occasion} {os : List Occasion} (owned : w.occasions = o :: os)
    (unlost : lossEpoch w.occasions = none) (unchecked : .check ∉ w.occasions) (state : d.check.state = .normal)
    (lost : CanBeLost (d.streams.get st)) : anchorFailed st w d =
      loseStream st .anchorWrite false 0 w.address (pushReport (checkReport st .anchorWrite 0 w.address) (stillWritten st d)) := by
  have other : isAttachWrite (d.streams.get st) w ≠ true := fun attach => by
    obtain ⟨attaching, _⟩ := isAttachWrite_iff.mp attach
    rcases lost with h | h | h | h <;> simp [h] at attaching
  have still : CanBeLost ((stillWritten st d).streams.get st) := by
    rw [stillWritten_streams, CanBeLost, withoutWrite_state]
    exact lost
  rw [anchorFailed_eq, dropAnchorLines_other other, anchorOutcome_fault owned unlost unchecked, streamFault_lost (d := stillWritten st d) state still,
    checkAfterAnchor_other]
  rw [loseStream_check]
  exact state.trans_ne (by decide)

theorem anchorFailed_attaching {o : Occasion} {os : List Occasion} (owned : w.occasions = o :: os)
    (unlost : lossEpoch w.occasions = none) (unchecked : .check ∉ w.occasions) (state : d.check.state = .normal)
    (attaching : (d.streams.get st).state = .opening ∨ (d.streams.get st).state = .resuming) : anchorFailed st w d =
      endAttach st .failed 8 0 w.address (abandon (isAnchorWriteOf st) (withoutWrite st d)) := by
  have attach : isAttachWrite (d.streams.get st) w = true :=
    isAttachWrite_iff.mpr ⟨attaching, by simp [owned], unlost, unchecked⟩
  have check : (abandon (isAnchorWriteOf st) (withoutWrite st d)).check = d.check := abandon_check _ _
  have still : ((abandon (isAnchorWriteOf st) (withoutWrite st d)).streams.get st).state = .opening
      ∨ ((abandon (isAnchorWriteOf st) (withoutWrite st d)).streams.get st).state = .resuming := by
    rw [abandon_streams, withoutWrite_state]
    exact attaching
  rw [anchorFailed_eq, dropAnchorLines_attach attach, anchorOutcome_fault owned unlost unchecked,
    streamFault_attaching (by rw [check, state]) still, checkAfterAnchor_other]
  · rfl
  · rw [endAttach_check, check, state]
    decide

theorem anchorFailed_handling {o : Occasion} {os : List Occasion} (owned : w.occasions = o :: os)
    (unlost : lossEpoch w.occasions = none) (unchecked : .check ∉ w.occasions) (handling : d.check.state ≠ .normal) :
    anchorFailed st w d = checkAfterAnchor st (dropFault st
      (if (d.streams.get st).state = .opening ∨ (d.streams.get st).state = .resuming then
        abandon (isAnchorWriteOf st) (withoutWrite st d) else stillWritten st d)) := by
  rw [anchorFailed_eq, anchorOutcome_fault owned unlost unchecked]
  by_cases attaching : (d.streams.get st).state = .opening ∨ (d.streams.get st).state = .resuming
  · have check : (abandon (isAnchorWriteOf st) (withoutWrite st d)).check = d.check := abandon_check _ _
    rw [if_pos attaching, dropAnchorLines_attach (isAttachWrite_iff.mpr ⟨attaching, by simp [owned], unlost, unchecked⟩),
      streamFault_dropped (by rw [check]; exact handling)]
  · rw [if_neg attaching, dropAnchorLines_other fun attach => attaching (isAttachWrite_iff.mp attach).1,
      streamFault_dropped (d := stillWritten st d) handling]

/-- A RELEASE's own anchor write completes it (R98). -/
theorem anchorDone_release {o : Operation} (state : d.check.state = .normal) (owner : w.occasions = [.release])
    (operation : (d.streams.get st).operation = some o) : anchorDone st w d =
      streamDone st { kind := .commandDone, tag := o.tag, epoch := o.epoch, first := o.retired, second := o.freed }
        ((testFreed st (d.withStream st (anchorAcknowledged w))).withStream st fun y => { y with operation := none }) := by
  have still : ((testFreed st (d.withStream st (anchorAcknowledged w))).streams.get st).operation = some o := by
    rw [testFreed_operation, withStream_get]
    exact operation
  have check : (testFreed st (d.withStream st (anchorAcknowledged w))).check = d.check := testFreed_check _ _
  rw [anchorDone, owner, List.foldl_cons, List.foldl_nil, checkAfterAnchor_other]
  · simp only [tellOwner, completeOperation, still]
    rfl
  · simp only [tellOwner, completeOperation, still]
    rw [streamDone_check, withStream_check, check, state]
    decide

end

/-- Settles O37: the issue by R125's conditions, the order of issues, and each answer to a line of the write. -/
theorem anchorWriteIssued : Obligations.AnchorWriteIssued := by
  unfold Obligations.AnchorWriteIssued
  refine ⟨fun s st x w stream waiting => ?_, ?_, fun s t r st i x w outstanding job write stream position => ?_, ?_, ?_⟩
  · subst stream
    intro issued outcome
    have waits (bars : anchorIssuable s.dev (s.dev.streams.get st) w = false) : outcome s.dev :=
      (exec_anchorWriteIssue _ _).trans (innerEvent_idle (tryAnchorWriteIssue_waits waiting bars))
    refine ⟨fun free allowed => ⟨fun base c frozen => ?_, fun h live history near => ?_, fun h live history far => ?_⟩,
      fun bars => waits (anchorIssuable_bars bars)⟩
    · have issues := tryAnchorWriteIssue_issues waiting ((anchorIssuable_frozen frozen).mpr ⟨free, allowed⟩)
      rw [frozen] at issues
      exact (exec_anchorWriteIssue _ _).trans (innerEvent_done issues)
    · have issues := tryAnchorWriteIssue_issues waiting ((anchorIssuable_live live history).mpr ⟨free, near, allowed⟩)
      rw [live, anchorContents_eq] at issues
      exact (exec_anchorWriteIssue _ _).trans (innerEvent_done issues)
    · exact waits (Bool.eq_false_iff.mpr fun issuable =>
        Nat.not_le.mpr far ((anchorIssuable_live live history).mp issuable).2.1)
  · intro d path queue place choice handoff resumed held final target st e issues
    have targets (st : StreamNo) : target st = dueAddress (d.streams.get st) := rfl
    have due : anchorDue d st = some (dueAddress (d.streams.get st)) := anchorDue_iff.mpr ⟨by rw [issues]; rfl, rfl⟩
    obtain ⟨first, b, next, firstDue, least⟩ := nextAnchorIssue_least due
    obtain ⟨some, address⟩ := anchorDue_iff.mp firstDue
    obtain ⟨e', issues'⟩ := Option.isSome_iff_exists.mp some
    obtain ⟨le, tie⟩ := least (_, st) due
    rw [address] at le tie
    exact ⟨first, innerStep_anchorIssue path queue place choice handoff resumed held final next issues', some, le, tie⟩
  · subst stream
    have owns : r.job.releasesAtAnswer = true := by rw [job]; rfl
    intro d answered
    have told (m : MemAnswer) : tellJob r m (returned t r s.dev) = anchorLineAnswered st m d := by
      simp only [tellJob, job] <;> rfl
    have done {e : Device} (answer : anchorLineAnswered st .done d = e) : answered .done e :=
      (exec_anchorWriteLineAnswer _ _ _).trans (event_done outstanding write owns ((told .done).trans answer))
    have error {e : Device} (answer : anchorFailed st w d = e) : answered .error e :=
      (exec_anchorWriteLineAnswer _ _ _).trans (event_error outstanding owns
        ((told .error).trans ((anchorLineAnswered_error (d := d) position).trans answer)))
    refine ⟨fun before => done (anchorLineAnswered_counts (d := d) position before), fun last =>
      ⟨done (anchorLineAnswered_last (d := d) position last), fun o state owner operation =>
        done ((anchorLineAnswered_last (d := d) position last).trans (anchorDone_release (d := d) state owner operation))⟩, ?_⟩
    intro e mine rest
    have mine_eq : isAnchorWriteOf st = mine := anchorWriteOf_eq
    have rest_eq : stillWritten st d = rest := congrArg (fun p => discardLater p e) mine_eq
    refine ⟨fun loss => error ?_, fun unlost check => error ?_, fun unowned => error ?_,
      fun o os owned unlost unchecked state => ⟨fun lost => error ?_, fun attaching => error ?_⟩,
      fun o os owned unlost unchecked handling => error ?_⟩
    · rw [anchorFailed_loss loss, rest_eq]
    · rw [anchorFailed_check unlost check, rest_eq]
      rfl
    · rw [anchorFailed_unowned unowned, rest_eq]
    · rw [anchorFailed_lost (d := d) owned unlost unchecked state lost, rest_eq]
      rfl
    · rw [anchorFailed_attaching (d := d) owned unlost unchecked state attaching, mine_eq]
      rfl
    · rw [anchorFailed_handling (d := d) owned unlost unchecked handling, rest_eq, mine_eq]
      rfl
  · intro d st x settled kept freed all stop
    refine testFreed_eq freed (fun f mem => settled_iff.mpr (all f mem)) fun f head => Bool.eq_false_iff.mpr fun isSettled => ?_
    obtain ⟨acknowledged, c, committed, below⟩ := settled_iff.mp isSettled
    exact (stop f head).elim (fun other => other acknowledged) fun above => Nat.not_lt.mpr below (above c committed)
  · intro d st e
    refine ⟨checkAfterAnchor_other, fun state all => ?_, fun state some => ?_⟩
    · exact (checkAfterAnchor_invalidate state).trans (if_pos (invalidationsDone_iff.mpr all))
    · obtain ⟨i, unfinished⟩ := some
      exact (checkAfterAnchor_invalidate state).trans (if_neg fun all => unfinished (invalidationsDone_iff.mp all i))

end Sys2Proof.Proofs

/-! PROOF. What the owners of an acknowledged anchor write do (R15, R67, R69, R82, R96, R98, R108, R115, R128, R130, R135). What the
Request Path and the Region Table leave of a stream's context stands first: their inner steps run inside these effects. Statement
`Obligations.AnchorOwnersTold`. -/
namespace Sys2Proof.Proofs
open Sys2Proof Sys2Proof.Machine

/-! ## What stays of the streams and the engine while the path settles -/

/-- A stream but for its position queue, its saturated flag and its next descriptor. -/
def contextOf (x : Stream) : Stream :=
  { x with positions := [], saturated := false, next := .absent, extensionLink := none }

/-- What a device `d` still has of the device `x` it came from: each stream's context, and the engine. -/
structure ContextKept (x d : Device) : Prop where
  streams : ∀ s, contextOf (d.streams.get s) = contextOf (x.streams.get s)
  engine : d.engine = x.engine

section
variable {x d e : Device}

theorem ContextKept.refl (d : Device) : ContextKept d d := ⟨fun _ => rfl, rfl⟩

theorem ContextKept.trans (first : ContextKept x d) (second : ContextKept d e) : ContextKept x e :=
  ⟨fun s => (second.streams s).trans (first.streams s), second.engine.trans first.engine⟩

/-- A change that leaves the streams and the engine alone. -/
theorem ContextKept.same (streams : d.streams = x.streams) (engine : d.engine = x.engine) : ContextKept x d :=
  ⟨fun _ => by rw [streams], engine⟩

theorem ContextKept.of_streamsKept (kept : StreamsKept x d) : ContextKept x d :=
  ⟨fun s => congrArg (fun y : Stream => { y with next := .absent, extensionLink := none }) (kept.streams s), kept.engine⟩

theorem ContextKept.foldl {α : Type} {f : Device → α → Device} (each : ∀ d a, ContextKept d (f d a)) (l : List α) (d : Device) :
    ContextKept d (l.foldl f d) := by
  induction l generalizing d with
  | nil => exact .refl d
  | cons a l ih => exact (each d a).trans (ih (f d a))

theorem ContextKept.withStream {s : StreamNo} {f : Stream → Stream}
    (same : contextOf (f (d.streams.get s)) = contextOf (d.streams.get s)) : ContextKept d (d.withStream s f) := by
  refine ⟨fun t => ?_, rfl⟩
  by_cases own : s = t
  · subst own
    rw [withStream_get, same]
  · rw [Device.withStream, Table.get_set_of_ne _ own]

theorem ContextKept.field {α : Type} (kept : ContextKept x d) (f : Stream → α) (reads : ∀ y, f (contextOf y) = f y)
    (s : StreamNo) : f (d.streams.get s) = f (x.streams.get s) := by
  rw [← reads, kept.streams s, reads]

end

section
variable (d : Device)

theorem pushReport_context (r : Report) : ContextKept d (pushReport r d) :=
  .of_streamsKept (pushReport_kept (.refl d) r)

theorem offer_context (r : PortRequest) : ContextKept d (offer r d) := .of_streamsKept (offer_kept (.refl d) r)

theorem withRegion_context (r : RegionNo) (f : Region → Region) : ContextKept d (d.withRegion r f) := .same rfl rfl

theorem withCommand_context (f : CommandUnit → CommandUnit) : ContextKept d (d.withCommand f) := .same rfl rfl

/-! ## The Region Table -/

theorem reportReached_context (r : RegionNo) (c : Change) (reached left : Mode) :
    ContextKept d (reportReached r c reached left d) := by
  cases c with
  | tagged t => exact pushReport_context _ _
  | _ => exact .refl d

theorem removeEntries_context (p : FilterEntry → Bool) : ContextKept d (removeEntries p d) :=
  .of_streamsKept (removeEntries_kept (.refl d) p)

theorem applyChange_context (r : RegionNo) : ContextKept d (applyChange r d) := by
  have entry : ContextKept d (d.withRegion r fun e => { e with effective := e.requested, change := .none }) :=
    withRegion_context d r _
  rw [applyChange_eq rfl]
  split
  · exact (entry.trans (reportReached_context _ _ _ _ _)).trans (removeEntries_context _ _)
  · exact entry.trans (reportReached_context _ _ _ _ _)

theorem testChange_context (r : RegionNo) : ContextKept d (testChange r d) := by
  rw [testChange]
  by_cases ready : changeReady d (d.regions.get r) = true
  · rw [tryModeChangeApplied_ready ready]
    exact applyChange_context d r
  · rw [tryModeChangeApplied_unready ready]
    exact .refl d

theorem supersede_context (r : RegionNo) (n : Nat) : ContextKept d (supersede r n d) := by
  simp only [supersede]
  cases (d.regions.get r).change with
  | tagged t => exact pushReport_context _ _
  | _ => exact .refl d

theorem internalChange_context (r : RegionNo) (m : Mode) : ContextKept d (internalChange r m d) := by
  simp only [internalChange]
  split
  · exact (supersede_context d r _).trans (withRegion_context _ r _)
  · exact ((supersede_context d r _).trans (withRegion_context _ r _)).trans (testChange_context _ r)

theorem resumeRegion_context (r : RegionNo) : ContextKept d (resumeRegion d r) := by
  simp only [resumeRegion]
  cases (d.regions.get r).resume with
  | none => exact .refl d
  | some m => exact (withRegion_context d r _).trans (internalChange_context _ r m)

theorem resumeRegions_context (s : StreamNo) : ContextKept d (resumeRegions s d) :=
  .foldl resumeRegion_context _ d

/-! ## Admissions and line grants -/

theorem handToCapture_context (t : ReqTag) (line : Nat) : ContextKept d (handToCapture t line d) := by
  simp only [handToCapture]
  cases filterEntry d line with
  | none =>
    cases freeSlotNo d with
    | none => exact .of_streamsKept (capture_kept (setRequestState_kept (.refl d) t _) _)
    | some k => exact .of_streamsKept (takeSlot_kept (.refl d) t k)
  | some e =>
    cases state : e.state with
    | captured => simpa only [state] using ContextKept.of_streamsKept (forward_kept (.refl d) t)
    | pending k =>
      simpa only [state] using ContextKept.of_streamsKept (setRequestState_kept (mapSlot_kept (.refl d) k _) t .capturing)

theorem upstreamGranted_context (t : ReqTag) : ContextKept d (upstreamGranted t d) := by
  simp only [upstreamGranted]
  cases d.path.requests.get t with
  | none => exact .refl d
  | some q =>
    dsimp only
    split
    · exact handToCapture_context d t q.line
    · exact .of_streamsKept (forward_kept (.refl d) t)

theorem askUpstream_context (t : ReqTag) (q : Request) : ContextKept d (askUpstream t q d) := by
  rw [askUpstream]
  split
  · exact (ContextKept.of_streamsKept (takeLine_kept (.refl d) _ _)).trans (upstreamGranted_context _ t)
  · exact .of_streamsKept (joinLine_kept (setRequestState_kept (.refl d) t _) _ _)

theorem offerHeadLine_context : ContextKept d (offerHeadLine d) := by
  have waits : ContextKept d (d.withCommand fun c => { c with headWaiting := true }) := withCommand_context d _
  rw [offerHeadLine, tryHeadLineWriteIssue]
  split
  · rw [Option.getD_some]
    exact waits.trans ((withCommand_context _ _).trans (offer_context _ _))
  · exact waits

theorem judgeWord_context (i : Fin 5) (v : BitVec 64) (n : Nat) : ContextKept d (judgeWord i v n d) := by
  match i with
  | 0 =>
    simp only [judgeWord, judgeRingSetup]
    split
    · exact (withCommand_context d _).trans (offerHeadLine_context _)
    · exact pushReport_context _ _
  | 1 =>
    simp only [judgeWord, judgeCommandTail]
    split
    · exact .same rfl rfl
    · exact pushReport_context _ _
  | 2 =>
    simp only [judgeWord, judgeReportSetup]
    split
    · exact (ContextKept.same rfl rfl : ContextKept d (d.withReport _)).trans (offerHeadLine_context _)
    · exact pushReport_context _ _
  | 3 =>
    simp only [judgeWord, judgeReportAck]
    split
    · exact .same rfl rfl
    · exact pushReport_context _ _
  | 4 =>
    simp only [judgeWord, judgeFaultAck]
    split
    · exact .same rfl rfl
    · exact pushReport_context _ _

theorem watchWindow_context (line : Nat) (mask : Mask) (data : Line) (n : Nat) :
    ContextKept d (watchWindow line mask data n d) := by
  rw [watchWindow]
  split
  · refine .foldl (fun d i => ?_) _ d
    rw [watchWord]
    split_ifs
    · exact judgeWord_context _ _ _ _
    · exact .refl d
    · exact pushReport_context _ _
  · exact .refl d

theorem admitted_context (t : ReqTag) (q : Request) : ContextKept d (admitted d t q) := .same rfl rfl

theorem admitRequest_context (t : ReqTag) : ContextKept d (admitRequest t d) := by
  cases entry : d.path.requests.get t with
  | none =>
    simp only [admitRequest, entry]
    exact .refl d
  | some q =>
    have seen : ContextKept d (if q.write then watchWindow q.line q.mask q.data d.path.admissions (admitted d t q)
        else admitted d t q) := by
      split
      · exact (admitted_context d t q).trans (watchWindow_context _ _ _ _ _)
      · exact admitted_context d t q
    rw [admitRequest_eq entry]
    split
    · exact seen.trans (.of_streamsKept (respond_kept (.refl _) t _))
    · exact seen.trans (askUpstream_context _ t _)

/-! ## The inner steps of the path -/

variable {d}

theorem tryModeChangeApplied_context {r : RegionNo} {e : Device} (step : tryModeChangeApplied r d = some e) :
    ContextKept d e := by
  have test := testChange_context d r
  rwa [testChange, step] at test

theorem tryReturn_context {r : RegionNo} {e : Device} (step : tryReturn r d = some e) : ContextKept d e := by
  rw [tryReturn] at step
  split at step
  · exact Option.some.inj step ▸ internalChange_context d r _
  · cases step

theorem tryRequestAdmission_context {r : RegionNo} {e : Device} (step : tryRequestAdmission r d = some e) :
    ContextKept d e := by
  simp only [tryRequestAdmission] at step
  split at step
  · cases step
  · split_ifs at step
    · exact Option.some.inj step ▸ admitRequest_context d _
    · exact Option.some.inj step ▸ (ContextKept.same rfl rfl : ContextKept d (d.withRequest _ _)).trans
        (admitRequest_context _ _)

theorem tryLineGrant_context {line : Nat} {e : Device} (step : tryLineGrant line d = some e) : ContextKept d e := by
  cases queue : (lockOf d line).queue with
  | nil => rw [tryLineGrant_empty queue] at step; cases step
  | cons a rest =>
    have taken (exclusive : Bool) : ContextKept d (frontTaken d line exclusive rest) := .same rfl rfl
    by_cases opens : ((lockOf d line).hold.takeable a.exclusive && !a.heldBack d) = true
    · obtain ⟨able, passes⟩ := Bool.and_eq_true_iff.mp opens
      cases a with
      | upstream t w =>
        rw [tryLineGrant_upstream queue able (by simpa using passes)] at step
        exact Option.some.inj step ▸ (taken w).trans (upstreamGranted_context _ t)
      | own r =>
        rw [tryLineGrant_own queue able] at step
        exact Option.some.inj step ▸ (taken r.exclusive).trans (.of_streamsKept (enterClass_kept (.refl _) r))
    · rw [tryLineGrant_closed queue opens] at step
      cases step

theorem pathStep_context {e : Device} (step : pathStep d = some e) : ContextKept d e := by
  rw [pathStep] at step
  split at step
  · exact tryModeChangeApplied_context step
  · split at step
    · exact tryReturn_context step
    · split at step
      · exact tryRequestAdmission_context step
      · split at step
        · exact tryLineGrant_context step
        · cases step

theorem settlePath_context (d : Device) : ContextKept d (settlePath d) := by
  rw [settlePath]
  generalize Config.innerSteps = n
  induction n generalizing d with
  | zero => exact .refl d
  | succ n ih =>
    rw [pathSteps]
    cases step : pathStep d with
    | none => exact .refl d
    | some e => exact (pathStep_context step).trans (ih e)

end

/-! ## Segment entries and descriptor fetches (R67, R69) -/

section
variable {d : Device} {st : StreamNo}

theorem reportEntered_notify {h : Segment} (newest : (d.streams.get st).history.getLast? = some h) (n : Nat) :
    reportEntered st n d = if h.notify = true then pushReport
      { kind := .segmentEntered, stream := st.1, epoch := (d.streams.get st).epoch.getD 0, sequence := h.first
        address := h.descriptor, first := h.count, second := n } d else d := by
  simp only [reportEntered, newest]
  rfl

theorem fetchFollowing_link {c : CurrentSegment} (current : (d.streams.get st).current = some c)
    (more : c.contents.last = false) : fetchFollowing st d = fetchDescriptor st c.contents.link d := by
  simp only [fetchFollowing, current, more, Bool.false_eq_true, if_false]

theorem fetchFollowing_extension {c : CurrentSegment} {l : Nat} (current : (d.streams.get st).current = some c)
    (last : c.contents.last = true) (extension : (d.streams.get st).extensionLink = some l) :
    fetchFollowing st d = fetchDescriptor st l (d.withStream st fun x => { x with extensionLink := none }) := by
  simp only [fetchFollowing, current, last, extension, if_true]

theorem fetchFollowing_none {c : CurrentSegment} (current : (d.streams.get st).current = some c)
    (last : c.contents.last = true) (ended : (d.streams.get st).extensionLink = none) : fetchFollowing st d = d := by
  simp only [fetchFollowing, current, last, ended, if_true]

theorem fetchDescriptor_eq (link : Nat) : fetchDescriptor st link d = offer ⟨.descriptor st, lineOf link, false, 0, 0⟩
    (d.withStream st fun x => { x with next := .fetching link }) := rfl

theorem fetchFollowing_context (d : Device) : ContextKept d (fetchFollowing st d) := by
  have fetched (d : Device) (link : Nat) : ContextKept d (fetchDescriptor st link d) :=
    (ContextKept.withStream rfl).trans (offer_context _ _)
  simp only [fetchFollowing]
  cases (d.streams.get st).current with
  | none => exact .refl d
  | some c =>
    dsimp only
    split
    · cases (d.streams.get st).extensionLink with
      | none => exact .refl d
      | some l => exact (ContextKept.withStream rfl).trans (fetched _ l)
    · exact fetched d _

/-! ## Completions -/

variable {o : Operation}

theorem completeOperation_eq (operation : (d.streams.get st).operation = some o) (report : Operation → Report) :
    completeOperation st report d = streamDone st (report o) (d.withStream st fun x => { x with operation := none }) := by
  simp only [completeOperation, operation]

/-- The operation slot and the ATTACH under way end. -/
def slotFreed (st : StreamNo) (d : Device) : Device := d.withStream st fun x => { x with operation := none, attach := none }

theorem finishAttach_eq (operation : (d.streams.get st).operation = some o) (report : Stream → Operation → Report) :
    finishAttach st report d = streamDone st (report (d.streams.get st) o) (slotFreed st d) := by
  simp only [finishAttach, operation]
  rfl

/-- What the effects of a completion leave of a stream whose state alone was set before. -/
theorem ContextKept.of_active {e : Device} {state : StreamState}
    (kept : ContextKept (d.withStream st fun x => { x with state := state }) e) {α : Type} (f : Stream → α)
    (reads : ∀ y, f (contextOf y) = f y) (stateless : ∀ y : Stream, f { y with state := state } = f y) :
    f (e.streams.get st) = f (d.streams.get st) := by
  rw [kept.field f reads st, withStream_get, stateless]

theorem freshComplete_eq (operation : (d.streams.get st).operation = some o) : freshComplete st d = streamDone st
    { kind := .commandDone, tag := o.tag, epoch := 1, label := o.label.toNat, sequence := 1
      address := (d.streams.get st).anchorAddress, first := (d.streams.get st).stamp.toNat }
    (slotFreed st (settlePath (d.withStream st fun x => { x with state := .active }))) := by
  have kept := settlePath_context (d.withStream st fun x => { x with state := .active })
  have still : ((becomeActive st d).streams.get st).operation = some o :=
    (kept.of_active Stream.operation (fun _ => rfl) fun _ => rfl).trans operation
  have address := kept.of_active Stream.anchorAddress (fun _ => rfl) fun _ => rfl
  have stamp := kept.of_active Stream.stamp (fun _ => rfl) fun _ => rfl
  rw [freshComplete, finishAttach_eq still, freshDone]
  rw [becomeActive, address, stamp]

/-- The label of the newest mark. -/
theorem newestLabel_eq (x : Stream) : newestLabel x = match x.marks.getLast? with
    | some m => m.label.toNat
    | none => 0 := by
  simp only [newestLabel]
  cases x.marks.getLast? <;> rfl

theorem resumeComplete_eq {a : Attach} {c : Scan} (operation : (d.streams.get st).operation = some o)
    (attach : (d.streams.get st).attach = some a) (scan : a.scan = some c) : resumeComplete st d = streamDone st
      { kind := .commandDone, tag := o.tag, epoch := (d.streams.get st).epoch.getD 0, label := newestLabel (d.streams.get st)
        sequence := (d.streams.get st).committed.getD 0, address := (d.streams.get st).anchorAddress
        first := (d.streams.get st).stamp.toNat, second := c.accepted + 65536 * c.marks }
      (slotFreed st (fetchFollowing st (settlePath (d.withStream st fun x => { x with state := .active })))) := by
  have kept := (settlePath_context (d.withStream st fun x => { x with state := .active })).trans (fetchFollowing_context (st := st) _)
  have still : ((fetchFollowing st (becomeActive st d)).streams.get st).operation = some o :=
    (kept.of_active Stream.operation (fun _ => rfl) fun _ => rfl).trans operation
  have epoch := kept.of_active Stream.epoch (fun _ => rfl) fun _ => rfl
  have label := kept.of_active newestLabel (fun _ => rfl) fun _ => rfl
  have committed := kept.of_active Stream.committed (fun _ => rfl) fun _ => rfl
  have address := kept.of_active Stream.anchorAddress (fun _ => rfl) fun _ => rfl
  have stamp := kept.of_active Stream.stamp (fun _ => rfl) fun _ => rfl
  have counts : scanOf (d.streams.get st) = some c := by simp only [scanOf, attach, Option.bind_some, scan]
  simp only [resumeComplete, counts]
  rw [finishAttach_eq still, resumeDone, becomeActive, epoch, label, committed, address, stamp]

/-- The engine passes on as the rollback of a stream completes (R103, R115). -/
def engineFreed (claims : List StreamNo) (d : Device) : Device := { d with engine := { Engine.cold with claims := claims } }

theorem completeRollback_eq (operation : (d.streams.get st).operation = some o) :
    completeRollback st d =
      let freed := engineFreed d.engine.claims (slotFreed st (fetchFollowing st (settlePath (resumeRegions st
        (d.withStream st fun x => { x with state := .active })))))
      streamDone st (rollbackDone d.engine (d.streams.get st) o) ((tryEngineClaimHandoff freed).getD freed) := by
  have kept := ((resumeRegions_context (d.withStream st fun x => { x with state := .active }) st).trans
    (settlePath_context _)).trans (fetchFollowing_context (st := st) _)
  have still := (kept.of_active Stream.operation (fun _ => rfl) fun _ => rfl).trans operation
  have epoch := kept.of_active Stream.epoch (fun _ => rfl) fun _ => rfl
  have label := kept.of_active newestLabel (fun _ => rfl) fun _ => rfl
  have committed := kept.of_active Stream.committed (fun _ => rfl) fun _ => rfl
  have address := kept.of_active Stream.anchorAddress (fun _ => rfl) fun _ => rfl
  have stamp := kept.of_active Stream.stamp (fun _ => rfl) fun _ => rfl
  have done : rollbackDone d.engine ((fetchFollowing st (settlePath (resumeRegions st
      (d.withStream st fun x => { x with state := .active })))).streams.get st) o =
        rollbackDone d.engine (d.streams.get st) o := by
    simp only [rollbackDone, epoch, label, committed, address, stamp]
  have engine : (slotFreed st (fetchFollowing st (settlePath (resumeRegions st
      (d.withStream st fun x => { x with state := .active }))))).engine = d.engine := kept.engine
  simp only [completeRollback, still, done, engineFreed, Device.withEngine]
  exact congrArg (fun g : Engine => streamDone st (rollbackDone d.engine (d.streams.get st) o)
    ((tryEngineClaimHandoff (engineFreed g.claims _)).getD (engineFreed g.claims _))) engine

/-- What DETACH keeps of a context (R83). -/
theorem detached_eq (x : Stream) : x.detached = { Stream.cold with
    anchorAddress := x.anchorAddress, stamp := x.stamp, generation := x.generation, newest := x.newest
    policy := x.policy, stallLimit := x.stallLimit, invalidation := x.invalidation
    anchorWaiting := x.anchorWaiting, anchorOutstanding := x.anchorOutstanding } := rfl

theorem chainJobOf_eq : isChainJobOf st = fun j => j == .descriptor st || j == .updateRead st || j == .updateWrite st := by
  funext j
  rw [Bool.eq_iff_iff]
  cases j <;> simp [isChainJobOf]

/-- The DETACH completes, before what becomes of an EXTEND (R82). -/
def detachDone (st : StreamNo) (o : Operation) (d : Device) : Device :=
  streamDone st { kind := .commandDone, tag := o.tag, second := (d.streams.get st).committed.getD 0 }
    (detachStream st (abandon (isChainJobOf st) d))

theorem detachComplete_plain (operation : (d.streams.get st).operation = some o)
    (unextended : (d.streams.get st).extension = none) : detachComplete st d = detachDone st o d := by
  simp only [detachComplete, operation, unextended]
  rfl

theorem detachComplete_extended {e : Extension} (operation : (d.streams.get st).operation = some o)
    (extended : (d.streams.get st).extension = some e) : detachComplete st d = streamDone st
      { kind := .commandDone, tag := e.tag, status := .failed, address := e.descriptor } (detachDone st o d) := by
  simp only [detachComplete, operation, extended]
  rfl

/-! ## Regions (R13, R15) -/

variable {r : RegionNo}

theorem endDegradations_eq (epoch : Nat) : endDegradations st epoch d =
    let degraded := (List.finRange 16).filter fun r =>
      (d.regions.get r).stream == some st && (d.regions.get r).degrading
    degraded.foldl changeAfterDegradation (degraded.foldl (endDegradation st epoch) d) := by
  have regions : (boundRegions d st).filter (fun r => (d.regions.get r).degrading) =
      (List.finRange 16).filter fun r => (d.regions.get r).stream == some st && (d.regions.get r).degrading := by
    rw [boundRegions, List.filter_filter]
    exact List.filter_congr fun r _ => Bool.and_comm _ _
  simp only [endDegradations, regions]

theorem changeAfterDegradation_tests (other : (d.regions.get r).change = .none ∨ (d.regions.get r).requested ≠ .pass) :
    changeAfterDegradation d r = testChange r d := if_neg fun ⟨pending, pass⟩ => other.elim pending fun mode => mode pass

theorem changeAfterDegradation_passes (pending : (d.regions.get r).change ≠ .none) (pass : (d.regions.get r).requested = .pass) :
    changeAfterDegradation d r =
      reportReached r (d.regions.get r).change .pass .pass (d.withRegion r fun e => { e with change := .none }) :=
  if_pos ⟨pending, pass⟩

theorem heldRegions_eq : heldRegions d st = (List.finRange 16).filter fun r =>
    (d.regions.get r).stream == some st && (d.regions.get r).resume.isSome := by
  rw [heldRegions, boundRegions, List.filter_filter]
  exact List.filter_congr fun r _ => Bool.and_comm _ _

/-- The pending tag of a region, if there is one, is reported as superseded (R13). -/
theorem supersede_eq (n : Nat) : supersede r n d = match (d.regions.get r).change with
    | .tagged t => pushReport { kind := .modeSuperseded, tag := t, region := r.1, stream := streamByte (d.regions.get r).stream
                                address := (d.regions.get r).base, first := (d.regions.get r).requested.code, second := n } d
    | _ => d := rfl

theorem supersede_regions (n : Nat) : (supersede r n d).regions = d.regions := by
  rw [supersede_eq]
  cases (d.regions.get r).change <;> rfl

theorem withRegion_get (f : Region → Region) : (d.withRegion r f).regions.get r = f (d.regions.get r) := Table.get_set ..

theorem withRegion_withRegion (f g : Region → Region) :
    (d.withRegion r f).withRegion r g = d.withRegion r fun e => g (f e) := by
  simp [Device.withRegion]

/-- A change of the region that leaves alone what the report reads may come before it. -/
theorem supersede_withRegion {f : Region → Region} (n : Nat) (change : (f (d.regions.get r)).change = (d.regions.get r).change)
    (stream : (f (d.regions.get r)).stream = (d.regions.get r).stream) (base : (f (d.regions.get r)).base = (d.regions.get r).base)
    (requested : (f (d.regions.get r)).requested = (d.regions.get r).requested) :
    supersede r n (d.withRegion r f) = (supersede r n d).withRegion r f := by
  rw [supersede_eq, supersede_eq, withRegion_get, change, stream, base, requested]
  cases (d.regions.get r).change <;> rfl

theorem resumeRegion_eq {m : Mode} (resume : (d.regions.get r).resume = some m) : resumeRegion d r =
    if m = (d.regions.get r).effective then
      (supersede r 65536 d).withRegion r fun e => { e with resume := none, requested := m, change := .none }
    else testChange r ((supersede r 65536 d).withRegion r fun e =>
      { e with resume := none, requested := m, change := .internal }) := by
  have commutes : supersede r internalCode (d.withRegion r fun e => { e with resume := none }) =
      (supersede r 65536 d).withRegion r fun e => { e with resume := none } :=
    supersede_withRegion _ rfl rfl rfl rfl
  simp only [resumeRegion, resume, internalChange, commutes, withRegion_get, withRegion_withRegion, supersede_regions]

end

/-- Settles O38: owner by owner, then the operations their effects are made of. -/
theorem anchorOwnersTold : Obligations.AnchorOwnersTold := by
  unfold Obligations.AnchorOwnersTold
  refine ⟨fun st d => ?_, fun st n d => ?_, fun st e d => ?_, fun st d => ?_, fun st d x stream clear => ?_⟩
  · intro x told active ended
    refine ⟨fun n => rfl, fun o operation => ⟨completeOperation_eq operation _, completeOperation_eq operation _, ?_,
      freshComplete_eq operation, fun a c attach scan => ?_, fun owner phase state => ?_⟩, fun e owner phase state => ?_,
      fun e handling => ?_, rfl, fun e => rfl, rfl⟩
    · intro detached
      have plain : detachDone st o d = detached := by
        rw [detachDone, chainJobOf_eq, detachStream]
        rfl
      exact ⟨fun unextended => (detachComplete_plain operation unextended).trans plain, fun e extended =>
        (detachComplete_extended operation extended).trans (congrArg _ plain)⟩
    · refine (resumeComplete_eq operation attach scan).trans ?_
      rw [newestLabel_eq]
      rfl
    · intro resumed freed
      have awaits : engineAwaits d st .finalAnchor = true := by simp [engineAwaits, enginePhase, owner, phase, normal_iff.mpr state]
      refine (if_pos awaits).trans ((completeRollback_eq operation).trans ?_)
      simp only [rollbackDone, newestLabel_eq]
      cases d.engine.origin <;> rfl
    · have awaits : engineAwaits d st .pendingAnchor = true := by
        simp [engineAwaits, enginePhase, owner, phase, normal_iff.mpr state]
      exact if_pos awaits
    · have quiet (p : Phase) : ¬ engineAwaits d st p = true := fun awaits =>
        handling (normal_iff.mp (Bool.and_eq_true_iff.mp awaits).2)
      exact ⟨if_neg (quiet _), if_neg (quiet _)⟩
  · intro x
    refine ⟨fun h newest => ⟨fun notify => ?_, fun silent => ?_⟩, fun c current => ?_⟩
    · rw [reportEntered_notify newest, if_pos notify]
    · rw [reportEntered_notify newest, if_neg (Bool.eq_false_iff.mp silent)]
    · intro fetched
      refine ⟨fun more => ?_, fun l last extension => ?_, fetchFollowing_none current⟩
      · rw [fetchFollowing_link current more, fetchDescriptor_eq]
        simp only [fetched, more]
        rfl
      · rw [fetchFollowing_extension current last extension, fetchDescriptor_eq, withStream_withStream]
        simp only [fetched, last]
        rfl
  · refine ⟨endDegradations_eq e, fun r => ?_⟩
    intro g passing
    refine ⟨changeAfterDegradation_tests, fun tag tagged pass => ?_, fun internal pass => ?_⟩
    · rw [changeAfterDegradation_passes (by rw [tagged]; simp) pass, tagged, reportReached_tagged, reachedReport, Device.withRegion,
        Table.get_set]
      rfl
    · rw [changeAfterDegradation_passes (by rw [internal]; simp) pass, internal]
      rfl
  · refine ⟨by rw [resumeRegions, heldRegions_eq], fun r m => ?_⟩
    intro g resume superseded
    have supersedes : supersede r 65536 d = superseded := supersede_eq _
    have regions : superseded.regions = d.regions := supersedes ▸ supersede_regions _
    refine ⟨fun same => ?_, fun other => ?_⟩
    · rw [resumeRegion_eq resume, if_pos same, supersedes, Device.withRegion, regions]
    · rw [resumeRegion_eq resume, if_neg other, supersedes, Device.withRegion, regions]
  · subst stream
    refine ⟨fun absent => by simp only [offerAnchorReads, absent], fun a attach => ⟨fun barred => ?_, fun unread sound => ?_⟩⟩
    · simp only [offerAnchorReads, attach]
      refine if_neg fun ⟨_, unread, sound⟩ => ?_
      simp [unread, sound] at barred
    · rw [offerAnchorReads_eq attach unread sound, readsFor, if_pos clear, Device.withStream, clear]
      rfl

end Sys2Proof.Proofs

/-! PROOF. The answers to anchor reads, the contents test of a copy, and how an ATTACH ends or drops its failure (R83, R128, R129,
R131, R132, R137, R163). Statement `Obligations.AnchorReadAnswered`. -/
namespace Sys2Proof.Proofs
open Sys2Proof Sys2Proof.Machine

/-! ## A line of a copy arrives -/

section
variable {d : Device} {st : StreamNo} {c : Copy} {i : Fin 16} {l : Line} {a : Attach} {p q : BitVec 8192}

theorem receive_eq : a.receive c i l =
    if c = .a then { a with copyA := a.copyA.set i (some l) } else { a with copyB := a.copyB.set i (some l) } := by
  cases c <;> rfl

theorem receive_fresh : (a.receive c i l).fresh = a.fresh := by cases c <;> rfl

theorem receive_first : (a.receive c i l).first = a.first := by cases c <;> rfl

theorem receive_firstAddress : (a.receive c i l).firstAddress = a.firstAddress := by cases c <;> rfl

/-- The ATTACH under way replaced. -/
def attaching (st : StreamNo) (a : Attach) (d : Device) : Device := d.withStream st fun x => { x with attach := some a }

theorem attaching_get : (attaching st a d).streams.get st = { d.streams.get st with attach := some a } := withStream_get ..

theorem attaching_attaching (b : Attach) : attaching st b (attaching st a d) = attaching st b d := by
  rw [attaching, attaching, withStream_withStream]
  rfl

theorem withAttach_eq (attach : (d.streams.get st).attach = some a) (f : Attach → Attach) :
    d.withAttach st f = attaching st (f a) d := by
  simp only [Device.withAttach, attaching, Device.withStream, attach, Option.map_some]

theorem anchorReadAnswered_incomplete (attach : (d.streams.get st).attach = some a)
    (incomplete : bothCopies (a.receive c i l) = none) :
    anchorReadAnswered st c i (.data l) d = attaching st (a.receive c i l) d := by
  simp only [anchorReadAnswered, withAttach_eq attach, attaching_get, incomplete]

theorem anchorReadAnswered_complete (attach : (d.streams.get st).attach = some a)
    (complete : bothCopies (a.receive c i l) = some (p, q)) :
    anchorReadAnswered st c i (.data l) d =
      if a.fresh = true then testFresh st (attaching st { a.receive c i l with judged := true } d)
      else resumeJudged st p q (attaching st { a.receive c i l with judged := true } d) := by
  have judged : (attaching st (a.receive c i l) d).withAttach st (fun w => { w with judged := true }) =
      attaching st { a.receive c i l with judged := true } d := by
    rw [withAttach_eq (congrArg Stream.attach attaching_get), attaching_attaching]
  simp only [anchorReadAnswered, withAttach_eq attach, attaching_get, complete, judged, receive_fresh]

theorem anchorReadAnswered_error : anchorReadAnswered st c i .error d =
    streamFault st .anchorRead 0 (copyAddress (d.streams.get st).anchorAddress c) d := rfl

theorem testFresh_undescribed (attach : (d.streams.get st).attach = some a) (undescribed : a.first = none) :
    testFresh st d = d := by
  simp only [testFresh, attach, undescribed]
  split <;> simp_all

theorem testFresh_located {g : Descriptor} {address : Nat} (attach : (d.streams.get st).attach = some a)
    (copies : bothCopies a = some (p, q)) (first : a.first = some g) (located : a.firstAddress = address)
    (unset : (d.streams.get st).current = none) : testFresh st d =
      { d with streams := d.streams.set st { (d.streams.get st).freshen (newestValid p q) address g with
        anchorWaiting := joined .attachFirst (d.streams.get st).anchorWaiting } } :=
  located ▸ testFresh_ready attach copies first unset

/-! ## Both copies of a RESUME judged -/

variable {n : Copy} {k : BitVec 8192}

theorem resumeJudged_invalid (invalid : newestValid p q = none) :
    resumeJudged st p q d = endAttach st .anchorInvalid 0 0 (d.streams.get st).anchorAddress d := by
  simp only [resumeJudged, invalid]

theorem resumeJudged_invalidated (chosen : newestValid p q = some (n, k)) (flagged : (copyContents k).invalidated = true) :
    resumeJudged st p q d =
      endAttach st .anchorInvalidated 0 0 (copyAddress (d.streams.get st).anchorAddress n) d := by
  simp only [resumeJudged, chosen, flagged, if_true]

theorem resumeJudged_failing (chosen : newestValid p q = some (n, k)) (unflagged : (copyContents k).invalidated = false)
    (failing : copyContentsPass k = false) : resumeJudged st p q d =
      streamFault st .anchorContent 0 (copyAddress (d.streams.get st).anchorAddress n) d := by
  simp only [resumeJudged, chosen, unflagged, failing, Bool.false_eq_true, if_false]

theorem resumeJudged_loads {h : Segment} (chosen : newestValid p q = some (n, k))
    (unflagged : (copyContents k).invalidated = false) (passing : copyContentsPass k = true)
    (newest : (copyContents k).history.getLast? = some h) : resumeJudged st p q d =
      offer ⟨.resumeDescriptor st, lineOf h.descriptor, false, 0, 0⟩ (d.withStream st fun x => x.load n k) := by
  have loaded : ((d.streams.get st).load n k).history.getLast? = some h := newest
  simp only [resumeJudged, chosen, unflagged, passing, Bool.false_eq_true, if_false, if_true, withStream_get, loaded]
  rfl

end

/-! ## The contents test (R132) -/

theorem increasing_iff (l : List Nat) : increasing l = true ↔ l.Pairwise (· < ·) := by
  rw [← List.isChain_iff_pairwise]
  induction l with
  | nil => simp [increasing]
  | cons a rest ih =>
    cases rest with
    | nil => simp [increasing]
    | cons b rest => simp [increasing, ih]

theorem copyContents_history_ne_nil {k : BitVec 8192} (some : 1 ≤ bytesAt k 0x15 1) : (copyContents k).history ≠ [] := by
  have count : (copyContents k).history.length = min 16 (bytesAt k 0x15 1) := by simp [copyContents]
  refine List.ne_nil_of_length_pos ?_
  omega

theorem copyContentsPass_iff (k : BitVec 8192) : copyContentsPass k = true ↔
    bytesAt k 0x14 1 ≤ 8 ∧ 1 ≤ bytesAt k 0x15 1 ∧ bytesAt k 0x15 1 ≤ 16
    ∧ (copyContents k).marks.Pairwise (fun m n => m.epoch < n.epoch ∧ m.sequence < n.sequence)
    ∧ (copyContents k).history.Pairwise (fun h i => h.first < i.first)
    ∧ (∀ h m, (copyContents k).history.head? = some h → m ∈ (copyContents k).marks →
        h.first ≤ m.sequence ∧ m.sequence < (copyContents k).nextSequence)
    ∧ (∀ h, (copyContents k).history.getLast? = some h → h.first ≤ (copyContents k).nextSequence)
    ∧ ((copyContents k).rollbackPending = true → ∃ m ∈ (copyContents k).marks, m.epoch = (copyContents k).target) := by
  simp only [copyContentsPass, Bool.and_eq_true, decide_eq_true_eq, increasing_iff, List.pairwise_map, List.all_eq_true,
    Bool.or_eq_true, Bool.not_eq_true', List.any_eq_true, beq_iff_eq, List.pairwise_and_iff, and_assoc]
  refine and_congr_right fun _ => and_congr_right fun some => ?_
  obtain ⟨h, rest, history⟩ := List.exists_cons_of_ne_nil (copyContents_history_ne_nil some)
  obtain ⟨g, newest⟩ := Option.isSome_iff_exists.mp (List.getLast?_isSome.mpr (copyContents_history_ne_nil some))
  have oldest : (copyContents k).history.head? = Option.some h := by rw [history]; rfl
  simp only [oldest, newest, Option.map_some, Option.getD_some, Option.some.injEq, forall_eq']
  refine and_congr_right fun _ => and_congr_right fun _ => and_congr_right fun _ => and_congr_right fun _ =>
    and_congr ⟨fun all _ m same mem => same ▸ all m mem, fun all m mem => all h m rfl mem⟩ (and_congr_right fun _ => ?_)
  cases (copyContents k).rollbackPending <;> simp

/-! ## The end of an ATTACH (R83, R131, R132, R137) -/

theorem table_ext {α : Type} {n : Nat} {t u : Table α n} (same : ∀ i, t.get i = u.get i) : t = u := by
  obtain ⟨cells, size⟩ := t
  obtain ⟨cells', size'⟩ := u
  have equal : cells = cells' := List.ext_getElem (size.trans size'.symm) fun i inside _ => same ⟨i, size ▸ inside⟩
  subst equal
  rfl

section
variable {d : Device} {st : StreamNo}

theorem mem_boundRegions {r : RegionNo} : r ∈ boundRegions d st ↔ (d.regions.get r).stream = some st := by
  simp [boundRegions, indices]

theorem foldl_dropResume (l : List RegionNo) (d : Device) (r : RegionNo) :
    (l.foldl (fun d r => d.withRegion r fun e => { e with resume := none }) d).regions.get r =
      if r ∈ l then { d.regions.get r with resume := none } else d.regions.get r := by
  induction l generalizing d with
  | nil => rfl
  | cons a rest ih =>
    rw [List.foldl_cons, ih]
    by_cases own : a = r
    · subst own
      simp
    · have other : (d.withRegion a fun e => { e with resume := none }).regions.get r = d.regions.get r :=
        Table.get_set_of_ne _ own _
      simp only [other, List.mem_cons, Ne.symm own, false_or]

/-- The stream's regions lose their resume modes (R116, R137). -/
theorem dropResume_regions : dropResume st d = { d with
    regions := d.regions.map fun e => if e.stream = some st then { e with resume := none } else e } := by
  rw [dropResume_eq]
  refine congrArg (fun rs => { d with regions := rs }) (table_ext fun r => ?_)
  rw [dropResume, foldl_dropResume, Table.get_map]
  simp only [mem_boundRegions]

theorem attachJobOf_eq : (fun j : Job => match j with
    | .anchorRead s _ _ | .firstDescriptor s | .resumeDescriptor s | .scanRead s _ _ | .descriptor s
    | .markRecord s _ => s == st
    | _ => false) = isAttachJobOf st := by
  funext j
  cases j <;> rfl

theorem anchorJobOf_eq : (fun j : Job => match j with | .anchorWrite s _ => s == st | _ => false) = isAnchorWriteOf st := by
  funext j
  cases j <;> rfl

/-- The anchor writes that an ATTACH's end leaves alone (R79, R81, R167). -/
abbrev Keeps (d : Device) (st : StreamNo) : Prop := (d.streams.get st).invalidation ≠ .none ∨ d.check.stages.get st ≠ .none

theorem keepsAnchorWrites_iff : keepsAnchorWrites d st = true ↔ Keeps d st := by
  simp [keepsAnchorWrites]

/-- The part without the requests of the ATTACH. -/
def attachDropped (d : Device) (st : StreamNo) : Device :=
  if Keeps d st then abandon (isAttachJobOf st) d else abandon (isAnchorWriteOf st) (abandon (isAttachJobOf st) d)

theorem attachDropped_streams : (attachDropped d st).streams = d.streams := by
  rw [attachDropped]
  split
  · exact abandon_streams _ _
  · exact (abandon_streams _ _).trans (abandon_streams _ _)

theorem abandonAttach_eq : abandonAttach st d = { attachDropped d st with streams := d.streams.set st { d.streams.get st with
    anchorWaiting := if Keeps d st then (d.streams.get st).anchorWaiting else none
    anchorOutstanding := if Keeps d st then (d.streams.get st).anchorOutstanding else none } } := by
  rw [abandonAttach, attachDropped]
  by_cases keeps : Keeps d st
  · rw [if_pos (keepsAnchorWrites_iff.mpr keeps)]
    simp only [if_pos keeps]
    refine Eq.trans ?_ (congrArg (fun t => { abandon (isAttachJobOf st) d with streams := t })
      (Table.set_get_self d.streams st).symm)
    show _ = { abandon (isAttachJobOf st) d with streams := d.streams }
    rw [← abandon_streams (isAttachJobOf st) d]
  · rw [if_neg (mt keepsAnchorWrites_iff.mp keeps)]
    simp only [if_neg keeps, Device.withStream, abandon_streams]

/-- What an ATTACH that ends without its stream leaves. -/
theorem endAttach_eq {o : Operation} (operation : (d.streams.get st).operation = some o) (status : Status)
    (second sequence address : Nat) : endAttach st status second sequence address d = commandDone
      { kind := .commandDone, tag := o.tag, status := status, stream := st.1, sequence := sequence, address := address,
        second := second }
      { attachDropped d st with
        streams := d.streams.set st { Stream.cold with
          anchorAddress := (d.streams.get st).anchorAddress, stamp := (d.streams.get st).stamp
          generation := (d.streams.get st).generation, newest := (d.streams.get st).newest
          policy := (d.streams.get st).policy, stallLimit := (d.streams.get st).stallLimit
          invalidation := (d.streams.get st).invalidation
          anchorWaiting := if Keeps d st then (d.streams.get st).anchorWaiting else none
          anchorOutstanding := if Keeps d st then (d.streams.get st).anchorOutstanding else none }
        regions := d.regions.map fun e => if e.stream = some st then { e with resume := none } else e
        engine := { d.engine with claims := d.engine.claims.filter (· != st) } } := by
  have regions : (attachDropped d st).regions = d.regions := by
    rw [attachDropped]
    split
    · rw [abandon_eq]
    · rw [abandon_eq, abandon_eq]
  have engine : (attachDropped d st).engine = d.engine := by
    rw [attachDropped]
    split
    · rw [abandon_eq]
    · rw [abandon_eq, abandon_eq]
  simp only [endAttach, operation, dropResume_regions, abandonAttach_eq, detachStream, detached_eq, Device.withStream,
    Device.withEngine, Table.get_set, Table.set_set, regions, engine]
  rfl

theorem attachOccasion_eq : Occasion.ofAttach = fun o => o == .attachFirst || o == .attachSecond || o == .resume := by
  funext o
  cases o <;> rfl

/-- What a dropped failure of an ATTACH leaves (R163, R167). -/
theorem dropFault_eq (attaches : (d.streams.get st).state = .opening ∨ (d.streams.get st).state = .resuming) :
    dropFault st d = { attachDropped d st with streams := d.streams.set st { d.streams.get st with
      anchorWaiting := if Keeps d st then (d.streams.get st).anchorWaiting.filter fun w => w.frozen.isSome else none
      anchorOutstanding := if Keeps d st then (d.streams.get st).anchorOutstanding.map fun w => { w with
        occasions := w.occasions.filter fun o => !(o == .attachFirst || o == .attachSecond || o == .resume) } else none
      attach := (d.streams.get st).attach.map fun a => { a with failed := true } } } := by
  rw [dropFault, if_pos attaches, abandonAttach_eq]
  simp only [Device.withStream, Table.get_set, Table.set_set, Stream.attachFailed, attachOccasion_eq]
  by_cases keeps : Keeps d st
  · simp only [if_pos keeps]
  · simp only [if_neg keeps]
    rfl

end

/-- Settles O39: the line that arrives, the contents test, and the two ends of an ATTACH. -/
theorem anchorReadAnswered : Obligations.AnchorReadAnswered := by
  unfold Obligations.AnchorReadAnswered
  refine ⟨fun s t r st c i x a outstanding job read stream attach => ?_, fun x n k address c => ⟨rfl, rfl, rfl⟩,
    copyContentsPass_iff, fun st d => ?_⟩
  · subst stream
    have owns : r.job.releasesAtAnswer = true := by rw [job]; rfl
    intro d copyAt answered
    have told (m : MemAnswer) : tellJob r m (returned t r s.dev) = Machine.anchorReadAnswered st c i m d := by
      simp only [tellJob, job] <;> rfl
    have data (l : Line) {e : Device} (answer : Machine.anchorReadAnswered st c i (.data l) d = e) : answered (.data l) e :=
      (exec_anchorReadAnswer _ _ _).trans (event_data outstanding read owns l ((told _).trans answer))
    have error {e : Device} (answer : streamFault st .anchorRead 0 (copyAddress (d.streams.get st).anchorAddress c) d = e) :
        answered .error e :=
      (exec_anchorReadAnswer _ _ _).trans (event_error outstanding owns ((told _).trans answer))
    have address : copyAddress (s.dev.streams.get st).anchorAddress c = copyAt := by cases c <;> rfl
    refine ⟨fun l => ?_, fun state attaches => ?_, fun handling => error (streamFault_dropped (d := d) handling)⟩
    · intro a' kept judged
      have received : a.receive c i l = a' := receive_eq
      refine ⟨fun incomplete => data l ?_, fun p q complete fresh => ?_, fun p q complete resumed => ?_⟩
      · rw [anchorReadAnswered_incomplete (d := d) attach (received ▸ incomplete), received]
        rfl
      · have answer := (anchorReadAnswered_complete (d := d) attach (received ▸ complete)).trans (if_pos fresh)
        rw [received] at answer
        have first : a'.first = a.first := received ▸ receive_first
        have firstAddress : a'.firstAddress = a.firstAddress := received ▸ receive_firstAddress
        intro seen
        refine ⟨fun undescribed => data l (answer.trans ?_), fun g described unset => data l (answer.trans ?_)⟩
        · exact testFresh_undescribed (congrArg Stream.attach attaching_get) (first.trans undescribed)
        · refine (testFresh_located (d := attaching st { a' with judged := true } d) (a := { a' with judged := true })
            (congrArg Stream.attach attaching_get) complete (first.trans described) firstAddress
            ((congrArg Stream.current attaching_get).trans unset)).trans ?_
          simp only [attaching, Device.withStream, Table.get_set, Table.set_set]
          rfl
      · have answer := (anchorReadAnswered_complete (d := d) attach (received ▸ complete)).trans
          (if_neg (Bool.eq_false_iff.mp resumed))
        rw [received] at answer
        have place : ((attaching st { a' with judged := true } d).streams.get st).anchorAddress =
            (s.dev.streams.get st).anchorAddress := (congrArg Stream.anchorAddress
            (attaching_get (d := d) (st := st) (a := { a' with judged := true }))).trans rfl
        intro seen
        refine ⟨fun invalid => data l (answer.trans ?_), fun n k chosen flagged => data l (answer.trans ?_),
          fun n k chosen unflagged => ⟨fun failing state resuming => data l (answer.trans ?_),
            fun failing handling => data l (answer.trans ?_), fun h passing newest => data l (answer.trans ?_)⟩⟩
        · rw [resumeJudged_invalid invalid, place]
          rfl
        · rw [resumeJudged_invalidated chosen flagged, place]
          rfl
        · have still := (congrArg Stream.state (attaching_get (d := d) (st := st) (a := { a' with judged := true }))).trans resuming
          refine (resumeJudged_failing (d := judged) chosen unflagged failing).trans
            ((streamFault_attaching (d := judged) state (.inr still)).trans ?_)
          rw [show (judged.streams.get st).anchorAddress = _ from place]
          rfl
        · exact (resumeJudged_failing (d := judged) chosen unflagged failing).trans (streamFault_dropped (d := judged) handling)
        · rw [resumeJudged_loads chosen unflagged passing newest, attaching, withStream_withStream]
          rfl
    · rw [← address]
      exact error (streamFault_attaching (d := d) state attaches)
  · intro x keeps reads writes dropped
    have dropped_eq : attachDropped d st = dropped := by
      have jobs : isAttachJobOf st = reads := attachJobOf_eq.symm
      have writeJobs : isAnchorWriteOf st = writes := anchorJobOf_eq.symm
      rw [attachDropped, jobs, writeJobs]
    refine ⟨fun status second sequence address o operation => ?_, fun attaches => ?_, fun opening resuming =>
      dropFault_other opening resuming⟩
    · rw [endAttach_eq operation, dropped_eq]
    · rw [dropFault_eq attaches, dropped_eq]

end Sys2Proof.Proofs

/-! PROOF. The resumed stream's forward scan (R132 to R137, R163). Statement `Obligations.ScanProceeds`. -/
namespace Sys2Proof.Proofs
open Sys2Proof Sys2Proof.Machine

/-! ## Requests abandoned beside a change of a stream -/

theorem foldl_releaseLine_withStream (l : List PortRequest) (d : Device) (s : StreamNo) (f : Stream → Stream) :
    l.foldl (fun e r => if r.job.ownsLine = true then releaseLine r.line e else e) (d.withStream s f) =
      (l.foldl (fun e r => if r.job.ownsLine = true then releaseLine r.line e else e) d).withStream s f := by
  induction l generalizing d with
  | nil => rfl
  | cons r l ih =>
    have step : (if r.job.ownsLine = true then releaseLine r.line (d.withStream s f) else d.withStream s f) =
        (if r.job.ownsLine = true then releaseLine r.line d else d).withStream s f := by
      split <;> rfl
    rw [List.foldl_cons, List.foldl_cons, step, ih]

theorem abandon_withStream (p : Job → Bool) (d : Device) (s : StreamNo) (f : Stream → Stream) :
    abandon p (d.withStream s f) = (abandon p d).withStream s f :=
  congrArg (disown p) (foldl_releaseLine_withStream (d.arbiter.waiting.filter fun r => p r.job)
    (leaveQueues p (d.withArbiter fun a => { a with waiting := a.waiting.filter fun r => !p r.job })) s f)

section
variable {d : Device} {st : StreamNo} {a : Attach} {c : Scan} {h : Segment} {cur : CurrentSegment}

/-! ## The newest segment's descriptor (R132, R137) -/

/-- The tests of the descriptor: valid, and the history entry's. -/
def DescriptorMatches (d : Device) (l : Line) (h : Segment) : Prop :=
  (parseDescriptor l h.descriptor).valid d.winsel = true ∧ (parseDescriptor l h.descriptor).base = h.base
    ∧ (parseDescriptor l h.descriptor).count = h.count

theorem resumeDescriptorAnswered_fails {l : Line} (newest : (d.streams.get st).history.getLast? = some h)
    (fails : ¬ DescriptorMatches d l h) : resumeDescriptorAnswered st (.data l) d =
      streamFault st .descriptorInvalid 0 h.descriptor d := by
  simp only [resumeDescriptorAnswered, newest]
  refine if_pos ?_
  rw [Bool.not_eq_true']
  refine Bool.eq_false_iff.mpr fun passes => fails ?_
  simpa [DescriptorMatches, and_assoc] using passes

theorem resumeDescriptorAnswered_matches {l : Line} (newest : (d.streams.get st).history.getLast? = some h)
    (agrees : DescriptorMatches d l h) : resumeDescriptorAnswered st (.data l) d =
      let next := (d.streams.get st).nextSequence.getD 0
      if h.count < next - h.first then
        streamFault st .anchorContent 0 (copyAddress (d.streams.get st).anchorAddress (d.streams.get st).newest) d
      else scanOn st (d.withStream st fun x => { x with
        current := some ⟨h.descriptor, parseDescriptor l h.descriptor, next - h.first⟩
        attach := x.attach.map fun w => { w with scan := some ⟨next, next, [], 0, 0⟩ } }) := by
  obtain ⟨valid, base, count⟩ := agrees
  simp only [resumeDescriptorAnswered, newest, valid, base, count, beq_self_eq_true, Bool.and_self, Bool.not_true,
    Bool.false_eq_true, if_false, Device.withAttach, withStream_withStream]

theorem resumeDescriptorAnswered_error (newest : (d.streams.get st).history.getLast? = some h) :
    resumeDescriptorAnswered st .error d = streamFault st .descriptorFetch 0 h.descriptor d := by
  simp only [resumeDescriptorAnswered, newest]

/-! ## The scan's window (R84, R133) -/

/-- The ATTACH with its scan replaced. -/
def scanningWith (st : StreamNo) (a : Attach) (c : Scan) (d : Device) : Device := attaching st { a with scan := some c } d

theorem withScan_eq (attach : (d.streams.get st).attach = some a) (scan : a.scan = some c) (f : Scan → Scan) :
    d.withScan st f = scanningWith st a (f c) d := by
  rw [Device.withScan, withAttach_eq attach, scan]
  rfl

theorem scanOf_eq (attach : (d.streams.get st).attach = some a) (scan : a.scan = some c) :
    scanOf (d.streams.get st) = some c := by
  rw [scanOf, attach, Option.bind_some, scan]

theorem currentFirst_eq (newest : (d.streams.get st).history.getLast? = some h) :
    currentFirst (d.streams.get st) = h.first := by
  rw [currentFirst, newest]
  rfl

theorem currentCount_eq (current : (d.streams.get st).current = some cur) :
    currentCount (d.streams.get st) = cur.contents.count := by
  rw [currentCount, current]
  rfl

theorem scanReadAnswered_data {n : Nat} {image : Bool} (l : Line) (attach : (d.streams.get st).attach = some a)
    (scan : a.scan = some c) : scanReadAnswered st n image (.data l) d =
      scanOn st (scanningWith st a { c with window := c.window.map (WindowRecord.receive n image l) } d) := by
  rw [scanReadAnswered, withScan_eq attach scan]

theorem refillScan_reads (n : Nat) (attach : (d.streams.get st).attach = some a) (scan : a.scan = some c)
    (newest : (d.streams.get st).history.getLast? = some h) (current : (d.streams.get st).current = some cur)
    (space : c.window.length < 8) (within : c.nextUnread - h.first < cur.contents.count) (state : d.check.state = .normal) :
    let address := recordAddress (d.streams.get st) c.nextUnread
    refillScan (n + 1) st d = refillScan n st (offerAll
      [⟨.scanRead st c.nextUnread false, address, false, 0, 0⟩, ⟨.scanRead st c.nextUnread true, address + 64, false, 0, 0⟩]
      (scanningWith st a { c with
        window := c.window ++ [⟨c.nextUnread, address, none, none⟩], nextUnread := c.nextUnread + 1 } d)) := by
  have reads : c.window.length < Config.windowRecords ∧ c.nextUnread - currentFirst (d.streams.get st) <
      currentCount (d.streams.get st) ∧ normal d = true := by
    rw [currentFirst_eq newest, currentCount_eq current]
    exact ⟨space, within, normal_iff.mpr state⟩
  simp only [refillScan, scanOf_eq attach scan, withScan_eq attach scan]
  exact if_pos reads

theorem refillScan_stops (n : Nat) (attach : (d.streams.get st).attach = some a) (scan : a.scan = some c)
    (newest : (d.streams.get st).history.getLast? = some h) (current : (d.streams.get st).current = some cur)
    (stops : 8 ≤ c.window.length ∨ cur.contents.count ≤ c.nextUnread - h.first ∨ d.check.state ≠ .normal) :
    refillScan (n + 1) st d = d := by
  simp only [refillScan, scanOf_eq attach scan]
  refine if_neg ?_
  rw [currentFirst_eq newest, currentCount_eq current]
  rintro ⟨space, within, state⟩
  exact stops.elim (Nat.not_le.mpr space) (·.elim (Nat.not_le.mpr within) fun handling => handling (normal_iff.mp state))

theorem judgeScan_ended (n : Nat) (attach : (d.streams.get st).attach = some a) (scan : a.scan = some c)
    (newest : (d.streams.get st).history.getLast? = some h) (current : (d.streams.get st).current = some cur)
    (ended : cur.contents.count ≤ c.expected - h.first) : judgeScan (n + 1) st d = endScan st c.expected d := by
  have all : currentCount (d.streams.get st) ≤ c.expected - currentFirst (d.streams.get st) := by
    rw [currentFirst_eq newest, currentCount_eq current]
    exact ended
  simp only [judgeScan, scanOf_eq attach scan, if_pos all]

/-- Within the segment the front record of the window decides. -/
theorem judgeScan_front (n : Nat) (attach : (d.streams.get st).attach = some a) (scan : a.scan = some c)
    (newest : (d.streams.get st).history.getLast? = some h) (current : (d.streams.get st).current = some cur)
    (within : c.expected - h.first < cur.contents.count) : judgeScan (n + 1) st d =
      match c.window.head? with
      | none => d
      | some w =>
        match w.header, w.image with
        | some header, some image =>
          if scanAccepts (d.streams.get st) c.expected header image then
            judgeScan n st (refillScan 8 st (acceptRecord st header c.expected d))
          else endScan st c.expected d
        | _, _ => d := by
  have more : ¬ currentCount (d.streams.get st) ≤ c.expected - currentFirst (d.streams.get st) := by
    rw [currentFirst_eq newest, currentCount_eq current]
    exact Nat.not_le.mpr within
  simp only [judgeScan, scanOf_eq attach scan, if_neg more] <;> rfl

/-! ## What a record is accepted for, and what acceptance does -/

theorem scanAccepts_iff (x : Stream) (expected : Nat) (header image : Line) : scanAccepts x expected header image = true ↔
    recordChecks header image = true ∧ headerStamp header = x.stamp.toNat ∧ headerSequence header = expected
    ∧ (headerKind header = 1 ∨ (headerKind header = 2 ∧ headerEpoch header = x.epoch.getD 0 + 1)) := by
  simp [scanAccepts, beforeImageKind, markKind, and_assoc]

/-- The scan as an accepted record leaves it. -/
def Scan.passed (c : Scan) : Scan := { c with expected := c.expected + 1, accepted := c.accepted + 1, window := c.window.drop 1 }

theorem acceptRecord_image {header : Line} {n : Nat} (attach : (d.streams.get st).attach = some a) (scan : a.scan = some c)
    (other : headerKind header ≠ 2) : acceptRecord st header n d = scanningWith st a (Scan.passed c) d := by
  have unmarked : ¬ headerKind header = markKind := other
  simp only [acceptRecord, if_neg unmarked]
  exact withScan_eq attach scan _

/-- The stream as an accepted MARK record leaves it. -/
def markAccepted (st : StreamNo) (a : Attach) (c : Scan) (header : Line) (n : Nat) (older : List MarkEntry) (d : Device) :
    Device :=
  d.withStream st fun x => { x with
    marks := older ++ [⟨headerEpoch header, BitVec.ofNat 32 (headerLabel header), n⟩]
    epoch := some (headerEpoch header)
    attach := some { a with scan := some { Scan.passed c with marks := c.marks + 1 } } }

theorem scanningWith_get : ((scanningWith st a c d).streams.get st).attach = some { a with scan := some c } :=
  congrArg Stream.attach attaching_get

/-- A MARK record accepted: a full table has lost its oldest mark before. -/
theorem acceptRecord_mark {header : Line} {n : Nat} {e : Device} (mark : headerKind header = 2)
    (retired : (if 8 ≤ (d.streams.get st).marks.length then retireOldest st .capacity d else d) = e)
    (attach : (e.streams.get st).attach = some a) (scan : a.scan = some c) :
    acceptRecord st header n d = markAccepted st a c header n (e.streams.get st).marks e := by
  have marked : headerKind header = markKind := mark
  have retired : (if Config.tableMarks ≤ (d.streams.get st).marks.length then retireOldest st .capacity d else d) = e := retired
  have joins (e : Device) (attach : (e.streams.get st).attach = some a) :
      (e.withScan st fun c => { c with marks := c.marks + 1 }).withScan st (fun c => Scan.passed c) =
        scanningWith st a { Scan.passed c with marks := c.marks + 1 } e := by
    rw [withScan_eq attach scan, withScan_eq scanningWith_get rfl, scanningWith, scanningWith, attaching_attaching]
    rfl
  simp only [acceptRecord, if_pos marked, acceptMark, retired]
  refine (joins _ (by rw [withStream_get]; exact attach)).trans ?_
  rw [scanningWith, attaching, withStream_withStream, markAccepted, Device.withStream]
  rfl

theorem acceptRecord_room {header : Line} {n : Nat} (attach : (d.streams.get st).attach = some a) (scan : a.scan = some c)
    (mark : headerKind header = 2) (room : (d.streams.get st).marks.length < 8) :
    acceptRecord st header n d = markAccepted st a c header n (d.streams.get st).marks d :=
  acceptRecord_mark mark (if_neg (Nat.not_le.mpr room)) attach scan

theorem acceptRecord_full {header : Line} {n : Nat} {o : MarkEntry} {rest : List MarkEntry}
    (attach : (d.streams.get st).attach = some a) (scan : a.scan = some c) (mark : headerKind header = 2)
    (marks : (d.streams.get st).marks = o :: rest) (full : 7 ≤ rest.length) :
    acceptRecord st header n d = markAccepted st a c header n rest (pushReport
      { kind := .markRetired, stream := st.1, epoch := o.epoch, label := o.label.toNat, sequence := o.sequence,
        first := 1, second := rest.length } d) := by
  have crowded : 8 ≤ (d.streams.get st).marks.length := by
    rw [marks]
    exact Nat.succ_le_succ full
  rw [acceptRecord_mark mark ((if_pos crowded).trans (retireOldest_eq marks)) (by rw [withStream_get]; exact attach) scan,
    withStream_get, markAccepted, withStream_withStream]
  rfl

/-! ## The scan's end (R134 to R136) -/

theorem scanJobOf_eq : (fun j : Job => match j with | .scanRead s _ _ => s == st | _ => false) = isScanJobOf st := by
  funext j
  cases j <;> rfl

/-- The context at the scan's end, its window empty. -/
def scanEnded (x : Stream) (a : Attach) (c : Scan) (h : Segment) (expected : Nat) : Stream :=
  { x with
    committed := some (expected - 1), nextSequence := some expected, acknowledged := []
    current := x.current.map fun g => { g with index := expected - h.first }
    attach := some { a with scan := some { c with window := [] } } }

/-- The part without the scan's reads, and the stream as given. -/
def scanLeft (st : StreamNo) (y : Stream) (d : Device) : Device := (abandon (isScanJobOf st) d).withStream st fun _ => y

theorem scanLeft_get (y : Stream) : (scanLeft st y d).streams.get st = y := withStream_get ..

theorem scanLeft_withStream (y : Stream) (f : Stream → Stream) : (scanLeft st y d).withStream st f = scanLeft st (f y) d := by
  rw [scanLeft, withStream_withStream]
  rfl

/-- What the end of a scan does first: its window is emptied and the sequences are set. -/
theorem endScan_left {expected : Nat} (attach : (d.streams.get st).attach = some a) (scan : a.scan = some c)
    (newest : (d.streams.get st).history.getLast? = some h) :
    (abandon (isScanJobOf st) (d.withScan st fun c => { c with window := [] })).withStream st (fun x => x.scanned expected) =
      scanLeft st (scanEnded (d.streams.get st) a c h expected) d := by
  have first : currentFirst { d.streams.get st with attach := some { a with scan := some { c with window := [] } } } = h.first := by
    rw [currentFirst, newest]
    rfl
  rw [withScan_eq attach scan, scanningWith, attaching, abandon_withStream, withStream_withStream]
  simp only [scanLeft, Device.withStream, abandon_streams, Stream.scanned, first]
  rfl

theorem endScan_eq {expected : Nat} (attach : (d.streams.get st).attach = some a) (scan : a.scan = some c)
    (newest : (d.streams.get st).history.getLast? = some h) : endScan st expected d =
      let y := scanEnded (d.streams.get st) a c h expected
      let stamped : Stream := { y with stamp := nextStamp y.stamp }
      if y.epoch = some 0 then endAttach st .anchorInvalid 0 0 (copyAddress y.anchorAddress y.newest) (scanLeft st y d)
      else match a.target with
        | some e => claimEngine st (holdRegions st (scanLeft st { stamped with resumedTarget := some e } d))
        | none => offerAnchor st .resume (scanLeft st stamped.freeSegments d) := by
  have target : ({ scanEnded (d.streams.get st) a c h expected with
      stamp := nextStamp (scanEnded (d.streams.get st) a c h expected).stamp } : Stream).attach.bind (·.target) = a.target := rfl
  simp only [endScan, endScan_left attach scan newest, scanLeft_get, scanLeft_withStream, target] <;>
    cases a.target <;> rfl

theorem claimEngine_eq : claimEngine st d =
    let claiming : Device := { d with engine := { d.engine with claims := d.engine.claims ++ [st] } }
    (tryEngineClaimHandoff claiming).getD claiming := rfl

end

/-- Settles O40: the descriptor's answer, the records' answers, the two recursions of the scan, and its end. -/
theorem scanProceeds : Obligations.ScanProceeds := by
  unfold Obligations.ScanProceeds
  refine ⟨fun s t r st x h next outstanding job read stream resuming state newest sequence => ?_,
    fun s t r st h outstanding job read handling newest => ?_,
    fun s t r st n image x a c outstanding job read stream attach scan => ?_, scanAccepts_iff,
    fun st n d x a c h cur stream attach scan newest current => ?_,
    fun st expected d x a c h stream attach scan newest => ?_⟩
  · subst stream
    have owns : r.job.releasesAtAnswer = true := by rw [job]; rfl
    intro d
    have told (m : MemAnswer) : tellJob r m (returned t r s.dev) = resumeDescriptorAnswered st m d := by
      simp only [tellJob, job] <;> rfl
    refine ⟨fun l => ?_, ?_⟩
    · refine (exec_resumeDescriptorAnswer _ _ _).trans (event_data outstanding read owns l ((told _).trans ?_))
      by_cases agrees : DescriptorMatches d l h
      · refine (resumeDescriptorAnswered_matches (d := d) newest agrees).trans (Eq.trans ?_ (if_pos agrees).symm)
        have known : (d.streams.get st).nextSequence.getD 0 = next := by
          rw [show (d.streams.get st).nextSequence = some next from sequence]
          rfl
        simp only [known, streamFault_attaching (d := d) state (.inr resuming)]
        rfl
      · exact (resumeDescriptorAnswered_fails (d := d) newest agrees).trans
          ((streamFault_attaching (d := d) state (.inr resuming)).trans (if_neg agrees).symm)
    · exact (exec_resumeDescriptorAnswer _ _ _).trans (event_error outstanding owns ((told _).trans
        ((resumeDescriptorAnswered_error (d := d) newest).trans (streamFault_attaching (d := d) state (.inr resuming)))))
  · have owns : r.job.releasesAtAnswer = true := by rw [job]; rfl
    intro d
    have told (m : MemAnswer) : tellJob r m (returned t r s.dev) = resumeDescriptorAnswered st m d := by
      simp only [tellJob, job] <;> rfl
    refine ⟨?_, fun l => ?_⟩
    · exact (exec_resumeDescriptorAnswer _ _ _).trans (event_error outstanding owns ((told _).trans
        ((resumeDescriptorAnswered_error (d := d) newest).trans (streamFault_dropped (d := d) handling))))
    · intro c fails
      refine (exec_resumeDescriptorAnswer _ _ _).trans (event_data outstanding read owns l ((told _).trans ?_))
      by_cases agrees : DescriptorMatches d l h
      · obtain ⟨valid, base, count⟩ := agrees
        have short : h.count < (d.streams.get st).nextSequence.getD 0 - h.first := by
          rcases fails with invalid | moved | resized | short
          · exact absurd valid (Bool.eq_false_iff.mp invalid)
          · exact absurd base moved
          · exact absurd count resized
          · exact short
        exact (resumeDescriptorAnswered_matches (d := d) newest ⟨valid, base, count⟩).trans
          ((if_pos short).trans (streamFault_dropped (d := d) handling))
      · exact (resumeDescriptorAnswered_fails (d := d) newest agrees).trans (streamFault_dropped (d := d) handling)
  · subst stream
    have owns : r.job.releasesAtAnswer = true := by rw [job]; rfl
    intro d
    have told (m : MemAnswer) : tellJob r m (returned t r s.dev) = scanReadAnswered st n image m d := by
      simp only [tellJob, job] <;> rfl
    have error {e : Device} (fault : streamFault st .journalRead n (recordAddress (d.streams.get st) n) d = e) :
        exec (.scanReadAnswer t .error) s = .next { s with dev := finish e } :=
      (exec_scanReadAnswer _ _ _).trans (event_error outstanding owns ((told _).trans fault))
    exact ⟨fun l => (exec_scanReadAnswer _ _ _).trans (event_data outstanding read owns l
        ((told _).trans (scanReadAnswered_data (d := d) l attach scan))),
      fun resuming state => error (streamFault_attaching (d := d) state (.inr resuming)),
      fun handling => error (streamFault_dropped (d := d) handling)⟩
  · subst stream
    intro scanning
    refine ⟨rfl, rfl, rfl, refillScan_reads n attach scan newest current, refillScan_stops n attach scan newest current,
      judgeScan_ended n attach scan newest current, fun within => ?_, fun header => ?_⟩
    · have front := judgeScan_front n attach scan newest current within
      refine ⟨fun empty => ?_, fun w rest window => ?_⟩
      · rw [empty] at front
        exact front
      · rw [window] at front
        refine ⟨fun waits => ?_, fun header image isHeader isImage => ⟨fun refused => ?_, fun accepted => ?_⟩⟩
        · rw [front]
          rcases waits with missing | missing
          · simp only [List.head?_cons, missing]
          · simp only [List.head?_cons, missing]
            cases w.header <;> rfl
        · simpa only [List.head?_cons, isHeader, isImage, refused, Bool.false_eq_true, if_false] using front
        · simpa only [List.head?_cons, isHeader, isImage, accepted, if_true] using front
    · exact ⟨acceptRecord_image attach scan, acceptRecord_room attach scan, fun o rest =>
        acceptRecord_full attach scan⟩
  · subst stream
    intro ended stamped left
    have left_eq (y : Stream) : scanLeft st y d = left y :=
      congrArg (fun p => (abandon p d).withStream st fun _ => y) scanJobOf_eq.symm
    have ends := endScan_eq (expected := expected) attach scan newest
    refine ⟨fun zero => ends.trans ?_, fun some target => ends.trans ?_, fun e some target => ends.trans ?_⟩
    · refine (if_pos zero).trans ?_
      rw [left_eq]
      rfl
    · refine (if_neg some).trans ?_
      rw [target, left_eq, offerAnchor_eq]
      simp only [left, Device.withStream, Table.get_set, Table.set_set]
      rfl
    · refine (if_neg some).trans ?_
      rw [target, left_eq]
      exact claimEngine_eq

end Sys2Proof.Proofs

/-! PROOF. DETACH (R56, R81 to R83), ROLLBACK taken (R13, R104, R105) and the engine's phases (R103, R107, R118). Statements
`Obligations.DetachProceeds`, `RollbackTaken` and `RollbackPhases`. -/
namespace Sys2Proof.Proofs
open Sys2Proof Sys2Proof.Machine

/-! ## The slots of a stream, as numbers -/

/-- The numbers of a part's slots that meet a condition, ascending. -/
def slotNumbers (d : Device) (p : Slot → Bool) : List SlotNo :=
  (List.finRange 16).filter fun k => match d.capture.slots.get k with
    | some c => p c
    | none => false

theorem slotsInUse_numbers (d : Device) (p : Slot → Bool) :
    ((slotsInUse d).filter fun q => p q.2).map (·.1) = slotNumbers d p := by
  have each (k : SlotNo) : Option.map (·.1) (((d.capture.slots.get k).map fun c => (k, c)).filter fun q => p q.2) =
      if (match d.capture.slots.get k with | some c => p c | none => false) = true then some k else none := by
    cases d.capture.slots.get k with
    | none => rfl
    | some c => cases passes : p c <;> simp [Option.filter, passes]
  rw [slotsInUse, List.filter_filterMap, List.map_filterMap, slotNumbers, ← List.filterMap_eq_filter]
  exact List.filterMap_congr fun k _ => (each k).trans (by simp [Option.guard])

/-- A fold over the slots of a stream that acts on those of some phases. -/
theorem foldl_slotsOf (d e : Device) (st : StreamNo) (p : Slot → Bool) (f : SlotNo → Device → Device) :
    (slotsOf d st).foldl (fun d q => if p q.2 = true then f q.1 d else d) e =
      (slotNumbers d fun c => c.stream == st && p c).foldl (fun d k => f k d) e := by
  have filtered : (slotsOf d st).foldl (fun d q => if p q.2 = true then f q.1 d else d) e =
      ((slotsOf d st).filter fun q => p q.2).foldl (fun d q => f q.1 d) e := by
    rw [List.foldl_filter]
  rw [filtered, ← slotsInUse_numbers, List.foldl_map, slotsOf, List.filter_filter]
  congr 1
  exact List.filter_congr fun q _ => Bool.and_comm _ _

/-- Parts whose slots agree in what the condition reads have the same numbers. -/
theorem slotNumbers_congr {d e : Device} {p : Slot → Bool}
    (same : ∀ k, (e.capture.slots.get k).map p = (d.capture.slots.get k).map p) : slotNumbers e p = slotNumbers d p := by
  refine List.filter_congr fun k _ => ?_
  have here := same k
  revert here
  cases e.capture.slots.get k <;> cases d.capture.slots.get k <;> intro here <;> simp_all

/-! ## DETACH judged (R81) -/

section
variable {d : Device} {st : StreamNo} {h : CmdHead}

theorem journaling_iff : journaling d st = true ↔ ∃ r, (d.regions.get r).stream = some st
    ∧ ((d.regions.get r).requested = .journal ∨ (d.regions.get r).effective = .journal) := by
  simp only [journaling, List.any_eq_true, mem_boundRegions, Bool.or_eq_true, beq_iff_eq]

theorem lost_iff {x : Stream} : x.lost = true ↔ x.state = .broken ∨ x.state = .faulted := by simp [Stream.lost]

theorem not_busy {x : Stream} (free : Unoccupied x) : ¬ x.busy = true := fun busy => busy_iff.mp busy free

theorem runDetach_badArgument (outside : 4 ≤ h.target.toNat) : runDetach h d = refuse h .badArgument d := by
  simp only [runDetach, targetStream_eq_none outside]

theorem runDetach_eq (target : targetStream h = some st) : runDetach h d =
    if (d.streams.get st).busy = true then refuse h .streamBusy d
    else if (d.streams.get st).state = .active ∨ (d.streams.get st).state = .exhausted then
      if journaling d st = true then refuse h .streamState d else takeDetach st h.tag d
    else if (d.streams.get st).state = .broken ∨ (d.streams.get st).state = .faulted then
      commandDone (streamAnswer h .ok) (detachStream st d)
    else refuse h .streamState d := by
  simp only [runDetach, target, running_iff, lost_iff]

/-! ## What the Capture Unit lets go of (R56) -/

theorem leaveSlotQueue_eq (d e : Device) (st : StreamNo) (same : e.path = d.path) : leaveSlotQueue st e = { e with
    capture := { e.capture with queue := e.capture.queue.filter fun t => !(match d.path.requests.get t with
      | some q => q.stream == some st
      | none => true) } } := by
  refine congrArg (fun l => { e with capture := { e.capture with queue := l } }) (List.filter_congr fun t _ => ?_)
  rw [same]
  cases d.path.requests.get t <;> rfl

/-- An answer upstream leaves the entries of other tags and the Capture Unit alone. -/
theorem respond_others {t u : ReqTag} (other : t ≠ u) (a : Response) (e : Device) :
    (respond t a e).path.requests.get u = e.path.requests.get u := by
  rw [respond]
  cases entry : e.path.requests.get t with
  | none => rfl
  | some q =>
    dsimp only
    split
    · split
      · exact Table.get_set_of_ne _ other _
      · exact Table.get_set_of_ne _ other _
    · exact Table.get_set_of_ne _ other _

theorem respond_capture (t : ReqTag) (a : Response) (e : Device) : (respond t a e).capture = e.capture := by
  rw [respond]
  split
  · rfl
  · dsimp only
    split
    · split <;> rfl
    · rfl

/-- Whether a write of the stream waits for a slot. -/
def waitsForSlot (d : Device) (st : StreamNo) (t : ReqTag) : Bool :=
  match d.path.requests.get t with
  | some q => q.stream == some st && q.state == .waitSlot
  | none => false

/-- RETRY for a write as its entry stood. -/
def retryEntry (d : Device) (e : Device) (t : ReqTag) : Device :=
  match d.path.requests.get t with
  | some q => respond t .retry (releaseLine q.line e)
  | none => e

theorem retryWaitSlot_eq {e : Device} {t : ReqTag} (same : e.path.requests.get t = d.path.requests.get t) :
    retryWaitSlot st e t = if waitsForSlot d st t = true then retryEntry d e t else e := by
  rw [retryWaitSlot, same, waitsForSlot, retryEntry]
  cases d.path.requests.get t with
  | none => rfl
  | some q => simp

theorem retryEntry_others {e : Device} {t u : ReqTag} (other : t ≠ u) :
    (retryEntry d e t).path.requests.get u = e.path.requests.get u := by
  rw [retryEntry]
  split
  · rw [respond_others other]
    rfl
  · rfl

theorem retryEntry_capture {e : Device} {t : ReqTag} : (retryEntry d e t).capture = e.capture := by
  rw [retryEntry]
  split
  · rw [respond_capture]
    rfl
  · rfl

/-- Each tag's entry still stands as it was when its turn comes. -/
theorem foldl_retryWaitSlot (l : List ReqTag) (distinct : l.Nodup) (e : Device)
    (same : ∀ t ∈ l, e.path.requests.get t = d.path.requests.get t) :
    l.foldl (retryWaitSlot st) e = (l.filter (waitsForSlot d st)).foldl (retryEntry d) e := by
  induction l generalizing e with
  | nil => rfl
  | cons t l ih =>
    obtain ⟨fresh, others⟩ := List.nodup_cons.mp distinct
    rw [List.foldl_cons, retryWaitSlot_eq (same t List.mem_cons_self)]
    by_cases waits : waitsForSlot d st t = true
    · rw [if_pos waits, List.filter_cons_of_pos waits, List.foldl_cons]
      refine ih others _ fun u mem => ?_
      have other : t ≠ u := fun eq => fresh (by rw [eq]; exact mem)
      rw [retryEntry_others other]
      exact same u (List.mem_cons_of_mem _ mem)
    · rw [if_neg waits, List.filter_cons_of_neg waits]
      exact ih others e fun u mem => same u (List.mem_cons_of_mem _ mem)

theorem foldl_retryEntry_capture (l : List ReqTag) (e : Device) : (l.foldl (retryEntry d) e).capture = e.capture := by
  induction l generalizing e with
  | nil => rfl
  | cons t l ih => rw [List.foldl_cons, ih, retryEntry_capture]

/-- The part with the stream's entries gone and its waiting writes answered. -/
def waitersAnswered (d : Device) (st : StreamNo) : Device :=
  ((List.finRange 64).filter (waitsForSlot d st)).foldl (retryEntry d) (leaveSlotQueue st (removeStreamEntries st d))

theorem removeEntries_path (p : FilterEntry → Bool) (d : Device) : (removeEntries p d).path = d.path := by
  rw [removeEntries_capture]

theorem waitersAnswered_slots (p : Slot → Bool) (unlinked : ∀ c, p { c with linked := false } = p c) (k : SlotNo) :
    ((waitersAnswered d st).capture.slots.get k).map p = (d.capture.slots.get k).map p := by
  rw [waitersAnswered, foldl_retryEntry_capture]
  show ((removeStreamEntries st d).capture.slots.get k).map p = _
  rw [removeStreamEntries, removeEntries_slots]
  split
  · rw [Option.map_map]
    exact congrArg (fun f => Option.map f _) (funext unlinked)
  · rfl

theorem unplaced_eq (c : Slot) : c.unplaced = (c.phase == .reading || c.phase == .waitingPosition) := rfl

theorem detachCaptures_eq : detachCaptures st d =
    (slotNumbers d fun c => c.stream == st && (c.phase == .reading || c.phase == .waitingPosition)).foldl
      (fun e k => cancelSlot k e) (waitersAnswered d st) := by
  have waiters : (indices 64).foldl (retryWaitSlot st) (leaveSlotQueue st (removeStreamEntries st d)) = waitersAnswered d st :=
    foldl_retryWaitSlot _ (List.nodup_finRange 64) _ fun t _ => by
      show (removeEntries _ d).path.requests.get t = _
      rw [removeEntries_path]
  have numbers : slotNumbers (waitersAnswered d st) (fun c => c.stream == st && c.unplaced) =
      slotNumbers d fun c => c.stream == st && c.unplaced :=
    slotNumbers_congr fun k => waitersAnswered_slots (fun c => c.stream == st && c.unplaced) (fun _ => rfl) k
  simp only [detachCaptures, waiters]
  rw [foldl_slotsOf _ _ st Slot.unplaced cancelSlot, numbers]
  rfl

/-! ## The final anchor of a DETACH (R82) -/

theorem slotsOf_empty (none_left : ∀ k y, d.capture.slots.get k = some y → y.stream ≠ st) : (slotsOf d st).isEmpty = true := by
  rw [List.isEmpty_iff, List.eq_nil_iff_forall_not_mem]
  rintro ⟨k, y⟩ mem
  obtain ⟨slot, stream⟩ := mem_slotsOf.mp mem
  exact none_left k y slot stream

theorem settled_of_committed {x : Stream} {c : Nat} (committed : x.committed = some c) (next : x.nextSequence = some (c + 1)) :
    x.settled = true := by
  simp [Stream.settled, committed, next]

theorem fetching_of_not {x : Stream} (quiet : ∀ a, x.next ≠ .fetching a) : x.fetching = false := by
  cases next : x.next with
  | fetching a => exact absurd next (quiet a)
  | _ => simp [Stream.fetching, next]

end

/-- Settles O41: the checks of the command, what the Capture Unit lets go of, and the final anchor. -/
theorem detachProceeds : Obligations.DetachProceeds := by
  unfold Obligations.DetachProceeds
  refine ⟨fun s h taking => ?_, fun d st => ?_, fun s st x c stream state slots committed next entered fetched extension waiting
    outstanding check => ?_⟩
  · intro d answered
    refine ⟨fun outside => (exec_detach _ _).trans (event_taken taking (runDetach_badArgument outside)), fun st target => ?_⟩
    have run := runDetach_eq (d := d) (targetStream_eq_some target)
    have taken {e : Device} (result : runDetach h d = e) : exec (.detach h) s = .next { s with dev := finish e } :=
      (exec_detach _ _).trans (event_taken taking result)
    intro x journaled
    refine ⟨fun occupied => taken (run.trans (if_pos (busy_iff.mpr occupied))), fun free other => ?_, fun free running => ⟨fun journals => ?_,
      fun plain => ?_⟩, fun free lost => ?_⟩
    · have idle : ¬ (x.state = .active ∨ x.state = .exhausted) := by rcases other with h | h | h <;> simp [h]
      have present : ¬ (x.state = .broken ∨ x.state = .faulted) := by rcases other with h | h | h <;> simp [h]
      exact taken (run.trans ((if_neg (not_busy free)).trans ((if_neg idle).trans (if_neg present))))
    · exact taken (run.trans ((if_neg (not_busy free)).trans ((if_pos running).trans (if_pos (journaling_iff.mpr journals)))))
    · exact taken (run.trans ((if_neg (not_busy free)).trans ((if_pos running).trans (if_neg (mt journaling_iff.mp plain)))))
    · have idle : ¬ (x.state = .active ∨ x.state = .exhausted) := by rcases lost with h | h <;> simp [h]
      exact taken (run.trans ((if_neg (not_busy free)).trans ((if_neg idle).trans (if_pos lost))))
  · intro theirs waiting cleared answered
    refine detachCaptures_eq.trans ?_
    have queue : leaveSlotQueue st (removeStreamEntries st d) =
        { cleared with capture := { cleared.capture with queue := d.capture.queue.filter fun t => !theirs t } } := by
      rw [leaveSlotQueue_eq d (removeStreamEntries st d) st (removeEntries_path _ d)]
      exact congrArg (fun q => { cleared with capture := { cleared.capture with queue := q.filter fun t => !theirs t } })
        (removeEntries_queue _ d)
    have answers : waitersAnswered d st = answered := by
      rw [waitersAnswered, queue]
      rfl
    rw [answers]
    rfl
  · subst stream
    have ready : detachReady s.dev st = true := by
      simp [detachReady, state, slotsOf_empty slots, settled_of_committed committed next, entered, fetching_of_not fetched,
        extension, Stream.anchorIdle, waiting, outstanding, normal_iff.mpr check]
    rw [exec_detachFinalAnchor, innerEvent_done (if_pos ready), offerAnchor_eq, waiting]
    rfl

/-! ## ROLLBACK judged (R104) -/

section
variable {d : Device} {st : StreamNo} {h : CmdHead} {epoch : BitVec 32} {r : RegionNo}

theorem runRollback_badArgument (bad : 4 ≤ h.target.toNat ∨ epoch = 0) :
    runRollback h epoch d = refuseRollback h epoch .badArgument d := by
  by_cases outside : 4 ≤ h.target.toNat
  · simp only [runRollback, targetStream_eq_none outside]
  · have zero : epoch = 0 := bad.resolve_left outside
    have target : targetStream h = some ⟨h.target.toNat, Nat.not_le.mp outside⟩ := targetStream_eq_some rfl
    simp only [runRollback, target, zero, if_true]

theorem runRollback_eq (target : targetStream h = some st) (nonzero : epoch ≠ 0) : runRollback h epoch d =
    if (d.streams.get st).busy = true then refuseRollback h epoch .streamBusy d
    else if ¬ ((d.streams.get st).state = .active ∨ (d.streams.get st).state = .exhausted) then
      refuseRollback h epoch .streamState d
    else if d.engine.phase ≠ .idle then refuseRollback h epoch .engineBusy d
    else match (d.streams.get st).marks.find? fun m => m.epoch == epoch.toNat with
      | some m => takeRollback st h.tag m d
      | none => refuseRollback h epoch .noSuchMark d := by
  simp only [runRollback, target, if_neg nonzero, ← running_iff, Bool.not_eq_true, Bool.not_eq_true'] <;> rfl

/-- The engine and the stream as the taking leaves them (R105). -/
def rollbackHolding (st : StreamNo) (tag : BitVec 16) (m : MarkEntry) (d : Device) : Device := { d with
  engine := { Engine.cold with
    phase := .holding, owner := some st, tag := tag, targetEpoch := some m.epoch, targetSequence := some m.sequence
    claims := d.engine.claims }
  streams := d.streams.set st { d.streams.get st with
    operation := some ⟨.rollback, tag, m.epoch, m.label, m.sequence, 0, 0⟩, state := .rollingBack, stallStart := none } }

theorem takeRollback_eq (tag : BitVec 16) (m : MarkEntry) : takeRollback st tag m d =
    if (d.streams.get st).state = .exhausted then cancelWaitingSlots st (holdRegions st (rollbackHolding st tag m d))
    else holdRegions st (rollbackHolding st tag m d) := by
  simp only [takeRollback, beq_iff_eq]
  rfl

theorem cancelWaitingSlots_eq : cancelWaitingSlots st d =
    (slotNumbers d fun c => c.stream == st && c.phase == .waitingPosition).foldl (fun e k => cancelSlot k e) d := by
  have chosen := foldl_slotsOf d d st (fun c => c.phase == .waitingPosition) cancelSlot
  simp only [beq_iff_eq] at chosen
  exact chosen

/-! ## One region held (R13) -/

theorem holdRegion_off (requested : (d.regions.get r).requested = .off) (effective : (d.regions.get r).effective = .off) :
    holdRegion d r = d := by
  refine if_neg fun decodes => ?_
  rcases decodes_iff.mp decodes with mode | mode
  · exact mode requested
  · exact mode effective

theorem holdRegion_eq (decodes : (d.regions.get r).requested ≠ .off ∨ (d.regions.get r).effective ≠ .off) :
    holdRegion d r = if .hold = (d.regions.get r).effective then
      (supersede r 65536 d).withRegion r fun e => { e with resume := some e.requested, requested := .hold, change := .none }
    else testChange r ((supersede r 65536 d).withRegion r fun e =>
      { e with resume := some e.requested, requested := .hold, change := .internal }) := by
  have commutes : supersede r internalCode (d.withRegion r fun e => { e with resume := some e.requested }) =
      (supersede r 65536 d).withRegion r fun e => { e with resume := some e.requested } :=
    supersede_withRegion _ rfl rfl rfl rfl
  simp only [holdRegion, decodes_iff.mpr decodes, if_true, internalChange, commutes, withRegion_get, withRegion_withRegion,
    supersede_regions]

end

/-- Settles O42: the checks of the command in their order, the folds over regions and slots, and one region's hold. -/
theorem rollbackTaken : Obligations.RollbackTaken := by
  unfold Obligations.RollbackTaken
  refine ⟨fun s h epoch taking => ?_, fun d st => ⟨rfl, cancelWaitingSlots_eq⟩, fun d r => ?_⟩
  · intro d refused
    have taken {e : Device} (result : runRollback h epoch d = e) : exec (.rollback h epoch) s = .next { s with dev := finish e } :=
      (exec_rollback _ _ _).trans (event_taken taking result)
    refine ⟨fun bad => taken (runRollback_badArgument bad), fun nonzero st target => ?_⟩
    have run := runRollback_eq (d := d) (targetStream_eq_some target) nonzero
    intro x
    refine ⟨fun occupied => taken (run.trans (if_pos (busy_iff.mpr occupied))), fun free notActive notExhausted => ?_,
      fun free running => ?_⟩
    · have idle : ¬ (x.state = .active ∨ x.state = .exhausted) := not_or.mpr ⟨notActive, notExhausted⟩
      exact taken (run.trans ((if_neg (not_busy free)).trans (if_pos idle)))
    · have judged := run.trans ((if_neg (not_busy free)).trans (if_neg (not_not.mpr running)))
      refine ⟨fun engaged => taken (judged.trans (if_pos engaged)), fun idle absent => ?_,
        fun idle older m rest marks epochs newer => ?_⟩
      · have none_found : (d.streams.get st).marks.find? (fun m => m.epoch == epoch.toNat) = none :=
          List.find?_eq_none.mpr fun m mem => by simpa using absent m mem
        refine taken (judged.trans ((if_neg (not_not.mpr idle)).trans ?_))
        rw [none_found]
        rfl
      · have found : (d.streams.get st).marks.find? (fun m => m.epoch == epoch.toNat) = some m :=
          List.find?_eq_some_iff_append.mpr ⟨by simpa using epochs, older, rest, marks, fun o mem => by
            simpa using newer o mem⟩
        refine taken (judged.trans ((if_neg (not_not.mpr idle)).trans ?_))
        rw [found]
        exact takeRollback_eq _ _
  · intro e superseded
    have supersedes : supersede r 65536 d = superseded := supersede_eq _
    have regions : superseded.regions = d.regions := supersedes ▸ supersede_regions _
    refine ⟨holdRegion_off, fun held => ?_, fun decodes other => ?_⟩
    · have decodes : e.requested ≠ .off ∨ e.effective ≠ .off := .inr (by rw [held]; decide)
      rw [holdRegion_eq decodes, if_pos held.symm, supersedes, Device.withRegion, regions]
    · rw [holdRegion_eq decodes, if_neg (Ne.symm other), supersedes, Device.withRegion, regions]

/-! ## The engine's phases (R103, R107, R118) -/

section
variable {d : Device} {st : StreamNo}

theorem regionsHeld_of (held : ∀ r, (d.regions.get r).stream = some st → (d.regions.get r).resume ≠ none →
    (d.regions.get r).effective = .hold ∧ (d.regions.get r).change = .none) : regionsHeld d st = true := by
  rw [regionsHeld, List.all_eq_true]
  intro r mem
  rw [heldRegions, List.mem_filter, mem_boundRegions] at mem
  obtain ⟨bound, resumes⟩ := mem
  obtain ⟨effective, change⟩ := held r bound (Option.isSome_iff_ne_none.mp resumes)
  simp [effective, change]

theorem slotsOf_placed (placed : ∀ k y, d.capture.slots.get k = some y → y.stream = st →
    y.phase ≠ .reading ∧ y.phase ≠ .waitingPosition) : ((slotsOf d st).all fun p => !p.2.unplaced) = true := by
  rw [List.all_eq_true]
  rintro ⟨k, y⟩ mem
  obtain ⟨slot, stream⟩ := mem_slotsOf.mp mem
  obtain ⟨read, waits⟩ := placed k y slot stream
  simp [Slot.unplaced, read, waits]

end

/-- Settles O43: the handoff, and the two ends of HOLDING with their conditions. -/
theorem rollbackPhases : Obligations.RollbackPhases := by
  unfold Obligations.RollbackPhases
  refine ⟨fun s st rest x o a phase claims stream operation attach => ?_,
    fun s st x e c phase origin owner target stream held placed committed next entered extension waiting outstanding state => ?_,
    fun s st phase origin owner held state => ?_⟩
  · subst stream
    have handoff : tryEngineClaimHandoff s.dev =
        some ((s.dev.withEngine fun _ => resumedEngine st (s.dev.streams.get st) rest).withStream st fun x =>
          { x with state := .rollingBack }) := by
      simp only [tryEngineClaimHandoff, phase, claims]
    have engine : resumedEngine st (s.dev.streams.get st) rest = { Engine.cold with
        phase := .holding, owner := some st, origin := .resume, tag := o.tag
        targetEpoch := (s.dev.streams.get st).resumedTarget, targetSequence := a.targetSequence
        walkTop := (s.dev.streams.get st).committed, readPointer := (s.dev.streams.get st).committed
        applyPointer := (s.dev.streams.get st).committed, claims := rest } := by
      simp only [resumedEngine, operation, attach, Option.map_some, Option.getD_some, Option.bind_some]
    rw [exec_engineClaimHandoff, innerEvent_done handoff, engine]
    rfl
  · subst stream
    have ready : holdingReady s.dev st = true := by
      simp [holdingReady, regionsHeld_of held, slotsOf_placed placed, settled_of_committed committed next, entered, extension,
        Stream.anchorIdle, waiting, outstanding, normal_iff.mpr state]
    have ends : tryHoldingEnd s.dev = some (offerAnchor st (.pending e) (s.dev.withEngine fun g => { g with
        phase := .pendingAnchor, walkTop := some c, readPointer := some c, applyPointer := some c })) := by
      simp only [tryHoldingEnd, phase, origin, owner, ready, if_true, target, committed, Option.getD_some]
    rw [exec_holdingEnd, innerEvent_done ends, offerAnchor_eq]
    show Host.Outcome.next { s with dev := finish { s.dev with
      engine := _, streams := s.dev.streams.set st { s.dev.streams.get st with
        anchorWaiting := joined (.pending e) (s.dev.streams.get st).anchorWaiting } } } = _
    rw [waiting]
    rfl
  · have ready : (regionsHeld s.dev st && normal s.dev) = true := by
      rw [regionsHeld_of held, normal_iff.mpr state]
      rfl
    have ends : tryResumedHoldingEnd s.dev = some (enterRestoring st s.dev) := by
      simp only [tryResumedHoldingEnd, phase, origin, owner, ready, if_true]
    rw [exec_resumedHoldingEnd, innerEvent_done ends]
    rfl

end Sys2Proof.Proofs

/-! PROOF. The walk (R109 to R112, R116, R117). Statement `Obligations.WalkProceeds`. -/
namespace Sys2Proof.Proofs
open Sys2Proof Sys2Proof.Machine

/-! ## The tests of a record (R110) and its address (R109) -/

theorem recordFault_eq (header image : Line) {pointer m : Nat} (e : Nat) (below : m ≤ pointer) :
    recordFault header image pointer m e =
      if bytesAt header 0x1C 4 ≠ recordCheckCode header image then some .recordCheck
      else if headerSequence header ≠ pointer then some .recordSequence
      else if (m < pointer ∧ (headerKind header = 1 ∨ (headerKind header = 2 ∧ e < headerEpoch header)))
          ∨ (pointer = m ∧ headerKind header = 2 ∧ headerEpoch header = e) then none
      else some .recordContent := by
  have code : (!recordChecks header image) = true ↔ bytesAt header 0x1C 4 ≠ recordCheckCode header image := by
    simp [recordChecks]
  rw [recordFault]
  by_cases wrong : bytesAt header 0x1C 4 ≠ recordCheckCode header image
  · rw [if_pos (code.mpr wrong), if_pos wrong]
  · rw [if_neg (mt code.mp wrong), if_neg wrong]
    by_cases misplaced : headerSequence header ≠ pointer
    · rw [if_pos misplaced, if_pos misplaced]
    · rw [if_neg misplaced, if_neg misplaced]
      rcases Nat.eq_or_lt_of_le below with target | above
      · subst target
        rw [if_pos rfl]
        exact if_congr (by simp [markKind]) rfl rfl
      · have other : pointer ≠ m := Nat.ne_of_gt above
        rw [if_neg other]
        by_cases before : headerKind header = 1
        · rw [if_pos (show headerKind header = beforeImageKind from before), if_pos (.inl ⟨above, .inl before⟩)]
        · rw [if_neg (show ¬ headerKind header = beforeImageKind from before)]
          exact if_congr (by simp [above, other, before, markKind]) rfl rfl

section
variable {x : Stream} {n : Nat}

theorem recordAddress_held {older newer : List Segment} {h : Segment} (history : x.history = older ++ h :: newer)
    (holds : h.first ≤ n) (later : ∀ g ∈ newer, n < g.first) : recordAddress x n = h.base + 128 * (n - h.first) := by
  have none_later : newer.filter (fun g => decide (g.first ≤ n)) = [] :=
    List.filter_eq_nil_iff.mpr fun g mem => by simpa using later g mem
  have found : segmentHolding x.history n = some h := by
    simp [segmentHolding, history, List.filter_append, holds, none_later]
  simp only [recordAddress, found, Nat.mul_comm]

theorem recordAddress_none (later : ∀ h ∈ x.history, n < h.first) : recordAddress x n = 0 := by
  have none_held : x.history.filter (fun h => decide (h.first ≤ n)) = [] :=
    List.filter_eq_nil_iff.mpr fun h mem => by simpa using later h mem
  have missing : segmentHolding x.history n = none := by
    rw [segmentHolding, none_held]
    rfl
  simp only [recordAddress, missing]

end

/-! ## Answers to the engine's requests -/

section
variable {d : Device} {st : StreamNo} {n : Nat} {image : Bool}

theorem journalReadAnswered_discarded (discards : d.check.state ≠ .normal ∨ d.engine.owner = none) (a : MemAnswer) :
    journalReadAnswered n image a d = d := by
  simp only [journalReadAnswered]
  cases owner : d.engine.owner with
  | none => rfl
  | some st =>
    have handling : normal d = false := Bool.eq_false_iff.mpr fun state =>
      discards.elim (fun other => other (normal_iff.mp state)) fun free => by rw [owner] at free; cases free
    simp only [handling, Bool.not_false, if_true]

theorem restoreAnswered_discarded (discards : d.check.state ≠ .normal ∨ d.engine.owner = none) (a : MemAnswer) :
    restoreAnswered n a d = d := by
  simp only [restoreAnswered]
  cases owner : d.engine.owner with
  | none => rfl
  | some st =>
    have handling : normal d = false := Bool.eq_false_iff.mpr fun state =>
      discards.elim (fun other => other (normal_iff.mp state)) fun free => by rw [owner] at free; cases free
    simp only [handling, Bool.not_false, if_true]

theorem journalReadAnswered_data (owner : d.engine.owner = some st) (state : d.check.state = .normal) (l : Line) :
    journalReadAnswered n image (.data l) d =
      walk st (d.withEngine fun g => { g with window := g.window.map (WindowRecord.receive n image l) }) := by
  simp only [journalReadAnswered, owner, normal_iff.mpr state, Bool.not_true, Bool.false_eq_true, if_false]

theorem journalReadAnswered_error (owner : d.engine.owner = some st) (state : d.check.state = .normal) :
    journalReadAnswered n image .error d =
      streamFault st .journalRead n (recordAddress (d.streams.get st) n) d := by
  simp only [journalReadAnswered, owner, normal_iff.mpr state, Bool.not_true, Bool.false_eq_true, if_false]

theorem restoreAnswered_done (owner : d.engine.owner = some st) (state : d.check.state = .normal) :
    restoreAnswered n .done d = walk st (d.withEngine fun g => { g with restores := g.restores - 1 }) := by
  simp only [restoreAnswered, owner, normal_iff.mpr state, Bool.not_true, Bool.false_eq_true, if_false]

theorem restoreAnswered_error (owner : d.engine.owner = some st) (state : d.check.state = .normal) :
    restoreAnswered n .error d = streamFault st .restoreWrite n (recordAddress (d.streams.get st) n) d := by
  simp only [restoreAnswered, owner, normal_iff.mpr state, Bool.not_true, Bool.false_eq_true, if_false]

/-! ## A valid record processed (R111) -/

variable {header body : Line} {m e : Nat}

theorem processRecord_restores (before : headerKind header = 1) (room : d.engine.restores < 8) :
    processRecord header body n m d = some (popRecord (offer
      ⟨.restore n, headerLineAddress header, true, BitVec.allOnes 64, body⟩
      (d.withEngine fun g => { g with restores := g.restores + 1, applied := g.applied + 1 }))) := by
  have kind : headerKind header = beforeImageKind := before
  have space : d.engine.restores < Config.restoreWrites := room
  simp only [processRecord, if_pos kind, if_pos space, writeOf, fullMask_eq]

theorem processRecord_waits (before : headerKind header = 1) (full : 8 ≤ d.engine.restores) :
    processRecord header body n m d = none := by
  have kind : headerKind header = beforeImageKind := before
  have crowded : ¬ d.engine.restores < Config.restoreWrites := Nat.not_lt.mpr full
  simp only [processRecord, if_pos kind, if_neg crowded]

theorem processRecord_skips (mark : headerKind header ≠ 1) (newer : n ≠ m) : processRecord header body n m d =
    some (popRecord (d.withEngine fun g => { g with skipped := g.skipped + 1 })) := by
  have kind : ¬ headerKind header = beforeImageKind := mark
  simp only [processRecord, if_neg kind, if_neg newer]

theorem processRecord_meets (mark : headerKind header ≠ 1) (target : n = m) : processRecord header body n m d =
    some (popRecord (d.withEngine fun g => { g with targetMet := true })) := by
  have kind : ¬ headerKind header = beforeImageKind := mark
  simp only [processRecord, if_neg kind, if_pos target]

/-! ## The walk's recursions (R109 to R112) -/

theorem testWalkEnd_eq (sequence : d.engine.targetSequence = some m) (epoch : d.engine.targetEpoch = some e) :
    testWalkEnd st d = if d.engine.phase = .restoring ∧ d.engine.targetMet = true ∧ d.engine.restores = 0
      then truncate st m e d else d := by
  simp only [testWalkEnd, sequence, epoch]

theorem refillWindow_absent (absent : d.engine.readPointer = none) : refillWindow (n + 1) st d = d := by
  simp only [refillWindow, absent]

theorem refillWindow_eq {p : Nat} (sequence : d.engine.targetSequence = some m) (pointer : d.engine.readPointer = some p) :
    refillWindow (n + 1) st d =
      if d.engine.window.length < 8 ∧ m ≤ p ∧ d.engine.targetOffered = false ∧ normal d = true then
        refillWindow n st (offerAll
          [⟨.journalRead p false, recordAddress (d.streams.get st) p, false, 0, 0⟩,
           ⟨.journalRead p true, recordAddress (d.streams.get st) p + 64, false, 0, 0⟩]
          (d.withEngine fun g => { g with
            window := g.window ++ [⟨p, recordAddress (d.streams.get st) p, none, none⟩]
            readPointer := some (if p = m then m else p - 1), targetOffered := p == m }))
      else d := by
  simp only [refillWindow, sequence, pointer] <;> rfl

theorem processWindow_empty (empty : d.engine.window = []) : processWindow (n + 1) st d = d := by
  simp only [processWindow, empty, List.head?_nil]

/-- The front record of the window decides. -/
theorem processWindow_front {w : WindowRecord} {rest : List WindowRecord} (window : d.engine.window = w :: rest)
    (sequence : d.engine.targetSequence = some m) (epoch : d.engine.targetEpoch = some e) (isHeader : w.header = some header)
    (isImage : w.image = some body) : processWindow (n + 1) st d =
      match recordFault header body w.sequence m e with
      | some cause => streamFault st cause w.sequence w.address d
      | none => match processRecord header body w.sequence m d with
        | some d' => processWindow n st (refillWindow 8 st d')
        | none => d := by
  simp only [processWindow, window, List.head?_cons, sequence, epoch, isHeader, isImage] <;> rfl

theorem processWindow_incomplete {w : WindowRecord} {rest : List WindowRecord} (window : d.engine.window = w :: rest)
    (sequence : d.engine.targetSequence = some m) (epoch : d.engine.targetEpoch = some e)
    (waits : w.header = none ∨ w.image = none) : processWindow (n + 1) st d = d := by
  simp only [processWindow, window, List.head?_cons, sequence, epoch]
  rcases waits with missing | missing
  · simp only [missing]
  · simp only [missing]
    cases w.header <;> rfl

/-- With nothing left in the window, the last restore write ends the walk (R112). -/
theorem walk_restored (empty : d.engine.window = []) (sequence : d.engine.targetSequence = some m)
    (epoch : d.engine.targetEpoch = some e) (phase : d.engine.phase = .restoring) (met : d.engine.targetMet = true) :
    walk st d = if d.engine.restores = 0 then truncate st m e d else d := by
  have processed : processWindow (Config.windowRecords + 1) st d = d := processWindow_empty empty
  rw [walk, processed, testWalkEnd_eq sequence epoch]
  simp only [phase, met, true_and]

end

/-- Settles O44: the tests of a record, the answers, and one step of each recursion of the walk. -/
theorem walkProceeds : Obligations.WalkProceeds := by
  unfold Obligations.WalkProceeds
  refine ⟨fun header image pointer m e below => recordFault_eq header image e below,
    fun x n => ⟨fun older h newer => recordAddress_held, recordAddress_none⟩,
    fun s t r n a outstanding discards => ?_,
    fun s t r st n image x outstanding job read owner state stream rolling => ?_,
    fun d st m e n sequence epoch => ⟨rfl, testWalkEnd_eq sequence epoch, rfl, rfl, refillWindow_absent, fun p pointer => ?_,
      processWindow_empty, fun w rest window => ⟨processWindow_incomplete window sequence epoch,
        fun header image isHeader isImage => ?_⟩⟩, fun d => rfl,
    fun s t r st n x outstanding job write owner state stream rolling => ?_⟩
  · intro d
    refine ⟨fun image job read notDone => ?_, fun job write notData => ?_⟩
    · have owns : r.job.releasesAtAnswer = true := by rw [job]; rfl
      have told : tellJob r a (returned t r s.dev) = d := by
        simp only [tellJob, job]
        exact journalReadAnswered_discarded (d := d) discards a
      cases a with
      | data l => exact (exec_journalReadAnswer _ _ _).trans (event_data outstanding read owns l told)
      | done => exact absurd rfl notDone
      | error => exact (exec_journalReadAnswer _ _ _).trans (event_error outstanding owns told)
    · have owns : r.job.releasesAtAnswer = true := by rw [job]; rfl
      have told : tellJob r a (returned t r s.dev) = d := by
        simp only [tellJob, job]
        exact restoreAnswered_discarded (d := d) discards a
      cases a with
      | data l => exact absurd rfl (notData l)
      | done => exact (exec_restoreWriteAnswer _ _ _).trans (event_done outstanding write owns told)
      | error => exact (exec_restoreWriteAnswer _ _ _).trans (event_error outstanding owns told)
  · subst stream
    have owns : r.job.releasesAtAnswer = true := by rw [job]; rfl
    intro d
    have told (a : MemAnswer) : tellJob r a (returned t r s.dev) = journalReadAnswered n image a d := by
      simp only [tellJob, job] <;> rfl
    exact ⟨fun l => (exec_journalReadAnswer _ _ _).trans (event_data outstanding read owns l
        ((told _).trans (journalReadAnswered_data (d := d) owner state l))),
      (exec_journalReadAnswer _ _ _).trans (event_error outstanding owns ((told _).trans
        ((journalReadAnswered_error (d := d) owner state).trans (streamFault_lost (d := d) state (.inr (.inr (.inl rolling))))))),
      fun y h i m => ⟨processRecord_restores, processRecord_waits, processRecord_skips, processRecord_meets⟩⟩
  · have refills := refillWindow_eq (st := st) (n := n) sequence pointer
    refine ⟨fun space above unoffered state => refills.trans (if_pos ⟨space, above, unoffered, normal_iff.mpr state⟩),
      fun stops => refills.trans (if_neg fun ⟨space, above, unoffered, state⟩ => ?_)⟩
    rcases stops with full | below | offered | handling
    · exact Nat.not_le.mpr space full
    · exact Nat.not_lt.mpr above below
    · rw [offered] at unoffered; cases unoffered
    · exact handling (normal_iff.mp state)
  · have front := processWindow_front (st := st) (n := n) window sequence epoch isHeader isImage
    refine ⟨fun cause fault state rolling => ?_, fun cause fault handling => ?_, fun sound => ⟨fun waits => ?_, fun d' processed => ?_⟩⟩
    · rw [fault] at front
      exact front.trans (streamFault_lost state (.inr (.inr (.inl rolling))))
    · rw [fault] at front
      exact front.trans (streamFault_dropped handling)
    · rw [sound, waits] at front
      exact front
    · rw [sound, processed] at front
      exact front
  · subst stream
    have owns : r.job.releasesAtAnswer = true := by rw [job]; rfl
    intro d lowered
    have told (a : MemAnswer) : tellJob r a (returned t r s.dev) = restoreAnswered n a d := by
      simp only [tellJob, job] <;> rfl
    have done {e : Device} (walks : walk st lowered = e) :
        exec (.restoreWriteAnswer t .done) s = .next { s with dev := finish e } :=
      (exec_restoreWriteAnswer _ _ _).trans (event_done outstanding write owns
        ((told _).trans ((restoreAnswered_done (d := d) owner state).trans walks)))
    refine ⟨done rfl, fun m e empty sequence epoch phase met => done ?_, ?_⟩
    · rw [walk_restored (d := lowered) empty sequence epoch phase met]
      exact if_congr (show s.dev.engine.restores - 1 = 0 ↔ _ by omega) rfl rfl
    · exact (exec_restoreWriteAnswer _ _ _).trans (event_error outstanding owns ((told _).trans
        ((restoreAnswered_error (d := d) owner state).trans (streamFault_lost (d := d) state (.inr (.inr (.inl rolling)))))))

end Sys2Proof.Proofs

/-! PROOF. Truncation (R113 to R115, R117). Statement `Obligations.TruncationProceeds`. -/
namespace Sys2Proof.Proofs
open Sys2Proof Sys2Proof.Machine

/-! ## Requests abandoned and entries removed beside the engine and the streams -/

/-- The part with the engine and the streams given. -/
def placing (g : Engine) (ss : Table Stream 4) (d : Device) : Device := { d with engine := g, streams := ss }

theorem foldl_releaseLine_placing (l : List PortRequest) (g : Engine) (ss : Table Stream 4) (d : Device) :
    l.foldl (fun e r => if r.job.ownsLine = true then releaseLine r.line e else e) (placing g ss d) =
      placing g ss (l.foldl (fun e r => if r.job.ownsLine = true then releaseLine r.line e else e) d) := by
  induction l generalizing d with
  | nil => rfl
  | cons r l ih =>
    have step : (if r.job.ownsLine = true then releaseLine r.line (placing g ss d) else placing g ss d) =
        placing g ss (if r.job.ownsLine = true then releaseLine r.line d else d) := by
      split <;> rfl
    rw [List.foldl_cons, List.foldl_cons, step, ih]

theorem abandon_placing (p : Job → Bool) (g : Engine) (ss : Table Stream 4) (d : Device) :
    abandon p (placing g ss d) = placing g ss (abandon p d) :=
  congrArg (disown p) (foldl_releaseLine_placing (d.arbiter.waiting.filter fun r => p r.job) g ss
    (leaveQueues p (d.withArbiter fun a => { a with waiting := a.waiting.filter fun r => !p r.job })))

theorem foldl_unlinkNamed_placing (es : List FilterEntry) (g : Engine) (ss : Table Stream 4) (d : Device) :
    es.foldl unlinkNamed (placing g ss d) = placing g ss (es.foldl unlinkNamed d) := by
  induction es generalizing d with
  | nil => rfl
  | cons e es ih =>
    have step : unlinkNamed (placing g ss d) e = placing g ss (unlinkNamed d e) := by
      unfold unlinkNamed
      split <;> rfl
    rw [List.foldl_cons, List.foldl_cons, step, ih]

theorem removeEntries_placing (p : FilterEntry → Bool) (g : Engine) (ss : Table Stream 4) (d : Device) :
    removeEntries p (placing g ss d) = placing g ss (removeEntries p d) := by
  have fold : (d.capture.filter.filter p).foldl unlinkNamed (placing g ss d) =
      placing g ss ((d.capture.filter.filter p).foldl unlinkNamed d) := foldl_unlinkNamed_placing _ g ss d
  rw [removeEntries_eq_fold, removeEntries_eq_fold]
  exact congrArg (fun e : Device => e.withFilter (d.capture.filter.filter fun e => !p e)) fold

/-! ## Truncation (R113) -/

section
variable {d : Device} {st : StreamNo} {m e : Nat} {h : Segment}

theorem prefetchOf_eq : isPrefetchOf st = fun j => j == .descriptor st := by
  funext j
  rw [Bool.eq_iff_iff]
  cases j <;> simp [isPrefetchOf]

/-- The part without the stream's prefetch and its filter entries. -/
def truncationCleared (d : Device) (st : StreamNo) : Device := removeEntries (FilterEntry.ofStream d st) (abandon (isPrefetchOf st) d)

theorem abandon_regions (p : Job → Bool) (d : Device) : (abandon p d).regions = d.regions := by rw [abandon_eq]

/-- The engine's phase and the stream, with the rest cleared. -/
def truncationLeft (d : Device) (st : StreamNo) (p : Phase) (y : Stream) : Device :=
  placing { d.engine with phase := p } (d.streams.set st y) (truncationCleared d st)

theorem truncationLeft_get {p : Phase} {y : Stream} : (truncationLeft d st p y).streams.get st = y := Table.get_set ..

theorem truncationLeft_withStream {p : Phase} {y : Stream} (f : Stream → Stream) :
    (truncationLeft d st p y).withStream st f = truncationLeft d st p (f y) := by
  simp [truncationLeft, placing, Device.withStream]

/-- The stream's entries go by the regions, which a truncation does not touch. -/
theorem truncation_clears : removeStreamEntries st (abandon (isPrefetchOf st)
    ((d.withEngine fun g => { g with phase := .truncating }).withStream st fun x => x.truncate m e)) =
      truncationLeft d st .truncating ((d.streams.get st).truncate m e) := by
  have placed : (d.withEngine fun g => { g with phase := .truncating }).withStream st (fun x => x.truncate m e) =
      placing { d.engine with phase := .truncating } (d.streams.set st ((d.streams.get st).truncate m e)) d := rfl
  have regions : FilterEntry.ofStream (placing { d.engine with phase := .truncating }
      (d.streams.set st ((d.streams.get st).truncate m e)) (abandon (isPrefetchOf st) d)) st = FilterEntry.ofStream d st := by
    funext (f : FilterEntry)
    simp only [FilterEntry.ofStream, placing, abandon_regions]
  rw [placed, abandon_placing, removeStreamEntries, regions, removeEntries_placing]
  rfl

theorem getLast?_filter_of_last {l : List Segment} {p : Segment → Bool} (last : l.getLast? = some h) (passes : p h = true) :
    (l.filter p).getLast? = some h := by
  obtain ⟨init, rfl⟩ := List.getLast?_eq_some_iff.mp last
  rw [List.filter_append, List.filter_cons_of_pos passes]
  exact List.getLast?_concat

theorem truncate_stays (newest : (d.streams.get st).history.getLast? = some h) (within : h.first ≤ m) : truncate st m e d =
    truncationLeft d st .finalAnchor { (d.streams.get st).truncate m e with
      current := (d.streams.get st).current.map fun c => { c with index := m + 1 - h.first }
      anchorWaiting := joined .final (d.streams.get st).anchorWaiting } := by
  have stays : ((d.streams.get st).history.getLast?.map (·.first)).getD 0 ≤ m := by
    rw [newest]
    exact within
  have index : truncatedIndex ((d.streams.get st).truncate m e) m = m + 1 - h.first := by
    have kept : ((d.streams.get st).truncate m e).history.getLast? = some h :=
      getLast?_filter_of_last newest (decide_eq_true within)
    rw [truncatedIndex, kept]
    rfl
  simp only [truncate, truncation_clears, if_pos stays, truncationLeft_get, index, truncationLeft_withStream, enterFinalAnchor,
    offerAnchor_eq]
  simp only [truncationLeft, placing, Device.withEngine, Table.get_set, Table.set_set]
  rfl

theorem truncate_earlier (newest : (d.streams.get st).history.getLast? = some h) (beyond : m < h.first) :
    truncate st m e d = offer ⟨.truncationDescriptor st, ((((d.streams.get st).history.filter fun h =>
      decide (h.first ≤ m)).getLast?.map fun g => lineOf g.descriptor).getD 0), false, 0, 0⟩
        (truncationLeft d st .truncating ((d.streams.get st).truncate m e)) := by
  have leaves : ¬ ((d.streams.get st).history.getLast?.map (·.first)).getD 0 ≤ m := by
    rw [newest]
    exact Nat.not_le.mpr beyond
  have line : lineOf ((((d.streams.get st).truncate m e).history.getLast?.map (·.descriptor)).getD 0) =
      ((((d.streams.get st).history.filter fun h => decide (h.first ≤ m)).getLast?.map fun g => lineOf g.descriptor).getD 0) := by
    show lineOf (((((d.streams.get st).history.filter fun h => decide (h.first ≤ m)).getLast?.map (·.descriptor)).getD 0)) = _
    cases ((d.streams.get st).history.filter fun h => decide (h.first ≤ m)).getLast? <;> rfl
  simp only [truncate, truncation_clears, if_neg leaves, truncationLeft_get, line]
  rfl

/-! ## The target segment's descriptor (R114) -/

theorem truncationAnswered_matches {l : Line} (newest : (d.streams.get st).history.getLast? = some h)
    (state : d.check.state = .normal) (agrees : DescriptorMatches d l h) : truncationAnswered st (.data l) d =
      enterFinalAnchor st (d.withStream st fun x => { x with
        current := some ⟨h.descriptor, parseDescriptor l h.descriptor, d.engine.targetSequence.getD 0 + 1 - h.first⟩ }) := by
  simp only [truncationAnswered, newest, normal_iff.mpr state, Bool.not_true, Bool.false_eq_true, if_false]
  exact if_pos agrees

theorem truncationAnswered_fails {l : Line} (newest : (d.streams.get st).history.getLast? = some h)
    (state : d.check.state = .normal) (fails : ¬ DescriptorMatches d l h) : truncationAnswered st (.data l) d =
      streamFault st .descriptorInvalid 0 h.descriptor d := by
  simp only [truncationAnswered, newest, normal_iff.mpr state, Bool.not_true, Bool.false_eq_true, if_false]
  exact if_neg fails

theorem truncationAnswered_error (newest : (d.streams.get st).history.getLast? = some h) (state : d.check.state = .normal) :
    truncationAnswered st .error d = streamFault st .descriptorFetch 0 h.descriptor d := by
  simp only [truncationAnswered, newest, normal_iff.mpr state, Bool.not_true, Bool.false_eq_true, if_false]

theorem truncationAnswered_discarded (discards : d.check.state ≠ .normal ∨ (d.streams.get st).history = []) (a : MemAnswer) :
    truncationAnswered st a d = d := by
  simp only [truncationAnswered]
  cases newest : (d.streams.get st).history.getLast? with
  | none => rfl
  | some h =>
    have handling : normal d = false := Bool.eq_false_iff.mpr fun state =>
      discards.elim (fun other => other (normal_iff.mp state)) fun empty => by rw [empty] at newest; cases newest
    simp only [handling, Bool.not_false, if_true]

end

/-- Settles O45: the truncation by where the newest segment begins, then the answers to the descriptor. -/
theorem truncationProceeds : Obligations.TruncationProceeds := by
  unfold Obligations.TruncationProceeds
  refine ⟨fun st m e d h => ?_, fun s t r st x h m outstanding job read stream newest state rolling sequence waiting => ?_,
    fun s t r st a outstanding job read notDone discards => ?_⟩
  · intro x kept cut cleared left newest
    have cleared_eq : truncationCleared d st = cleared :=
      congrArg (fun p => removeEntries (FilterEntry.ofStream d st) (abandon p d)) prefetchOf_eq
    have left_eq (p : Phase) (y : Stream) : truncationLeft d st p y = left p y := by
      rw [truncationLeft, cleared_eq]
      rfl
    refine ⟨fun within => ?_, fun beyond => ?_⟩
    · rw [truncate_stays newest within, left_eq]
      rfl
    · rw [truncate_earlier newest beyond, left_eq]
      rfl
  · subst stream
    have owns : r.job.releasesAtAnswer = true := by rw [job]; rfl
    intro d
    have told (a : MemAnswer) : tellJob r a (returned t r s.dev) = truncationAnswered st a d := by
      simp only [tellJob, job] <;> rfl
    have lost : CanBeLost (s.dev.streams.get st) := .inr (.inr (.inl rolling))
    refine ⟨fun l => ?_, (exec_truncationDescriptorAnswer _ _ _).trans (event_error outstanding owns ((told _).trans
      ((truncationAnswered_error (d := d) newest state).trans (streamFault_lost (d := d) state lost))))⟩
    refine (exec_truncationDescriptorAnswer _ _ _).trans (event_data outstanding read owns l ((told _).trans ?_))
    by_cases agrees : DescriptorMatches d l h
    · refine (truncationAnswered_matches (d := d) newest state agrees).trans (Eq.trans ?_ (if_pos agrees).symm)
      have target : d.engine.targetSequence.getD 0 = m := by
        rw [show d.engine.targetSequence = some m from sequence]
        rfl
      rw [target, enterFinalAnchor, offerAnchor_eq]
      simp only [Device.withStream, Device.withEngine, Table.get_set, Table.set_set,
        show (d.streams.get st).anchorWaiting = none from waiting]
      rfl
    · exact (truncationAnswered_fails (d := d) newest state agrees).trans
        ((streamFault_lost (d := d) state lost).trans (if_neg agrees).symm)
  · have owns : r.job.releasesAtAnswer = true := by rw [job]; rfl
    have told : tellJob r a (returned t r s.dev) = returned t r s.dev := by
      simp only [tellJob, job]
      exact truncationAnswered_discarded (d := returned t r s.dev) discards a
    cases a with
    | data l => exact (exec_truncationDescriptorAnswer _ _ _).trans (event_data outstanding read owns l told)
    | done => exact absurd rfl notDone
    | error => exact (exec_truncationDescriptorAnswer _ _ _).trans (event_error outstanding owns told)

end Sys2Proof.Proofs

/-! PROOF. Fetching and taking a record (R139, R142 to R146). Statements `Obligations.RecordsFetchedAndTaken` and
`Obligations.ChainRules`. -/
namespace Sys2Proof.Proofs
open Sys2Proof Sys2Proof.Machine

/-! ## When the unit may fetch and take -/

section
variable {d : Device}

theorem isWaiting_iff {c : ChainState} : c.isWaiting = true ↔ ∃ t, c = .waiting t := by
  cases c <;> simp [ChainState.isWaiting]

theorem paused_iff : paused d = true ↔ d.check.state ≠ .normal ∨ 16 ≤ d.report.queue.length := by
  rw [paused, Bool.or_eq_true, Bool.not_eq_true', ← Bool.not_eq_true, normal_iff, decide_eq_true_iff]
  rfl

theorem takingAllowed_iff : takingAllowed d = true ↔
    d.check.state = .normal ∧ d.report.queue.length < 16 ∧ ∀ t, d.command.chain ≠ .waiting t := by
  rw [takingAllowed, Bool.and_eq_true, Bool.not_eq_true', Bool.not_eq_true', ← Bool.not_eq_true, ← Bool.not_eq_true,
    paused_iff, isWaiting_iff, not_or, not_not, Nat.not_le, not_exists, and_assoc]

theorem not_takingAllowed (barred : d.check.state ≠ .normal ∨ 16 ≤ d.report.queue.length ∨ ∃ t, d.command.chain = .waiting t) :
    takingAllowed d = false := by
  rw [← Bool.not_eq_true, takingAllowed_iff]
  rintro ⟨state, queue, chain⟩
  rcases barred with other | full | ⟨t, waits⟩
  · exact other state
  · exact Nat.not_le.mpr queue full
  · exact chain t waits

theorem fenceClear_iff : fenceClear d = true ↔
    ∀ t q n, d.path.requests.get t = some q → q.write = true → q.admission = some n → d.path.fence ≤ n := by
  have sized := d.path.requests.size
  rw [fenceClear, List.all_eq_true]
  constructor
  · intro all t q n request write admitted
    have clear := all (d.path.requests.get t) (List.getElem_mem _)
    rw [request] at clear
    simpa [write, admitted] using clear
  · intro each e mem
    obtain ⟨i, inside, rfl⟩ := List.mem_iff_getElem.mp mem
    have entry : d.path.requests.get ⟨i, sized ▸ inside⟩ = d.path.requests.cells[i] := rfl
    rw [← entry]
    cases request : d.path.requests.get ⟨i, sized ▸ inside⟩ with
    | none => rfl
    | some q =>
      cases admitted : q.admission with
      | none => simp [admitted]
      | some n =>
        cases write : q.write with
        | false => simp [write]
        | true => simpa [admitted, write] using each _ q n request write admitted

end

/-! ## COMMAND_FETCH_ISSUE and its answer -/

section
variable {d : Device}

theorem tryCommandFetchIssue_issues (ring : d.command.ringSet = true) (records : d.command.head ≠ d.command.tail)
    (idle : d.command.fetch = .idle) (allowed : takingAllowed d = true) (clear : fenceClear d = true) :
    tryCommandFetchIssue d = some (offer ⟨.commandFetch, d.command.base + d.command.head * 64, false, 0, 0⟩
      { d with command := { d.command with fetch := .fetching (d.command.base + d.command.head * 64) } }) := by
  rw [tryCommandFetchIssue, if_pos ⟨ring, records, idle, allowed, clear⟩]
  rfl

theorem tryCommandFetchIssue_none (barred : d.command.ringSet = false ∨ d.command.head = d.command.tail ∨ d.command.fetch ≠ .idle
    ∨ takingAllowed d = false ∨ fenceClear d = false) : tryCommandFetchIssue d = none := by
  rw [tryCommandFetchIssue, if_neg]
  rintro ⟨ring, records, idle, allowed, clear⟩
  rcases barred with h | h | h | h | h
  · simp [ring] at h
  · exact records h
  · exact h idle
  · simp [allowed] at h
  · simp [clear] at h

theorem fetchAnswered_data {a : Nat} (fetching : d.command.fetch = .fetching a) (l : Line) :
    fetchAnswered (.data l) d = { d with command := { d.command with fetch := .held l } } := by
  simp only [fetchAnswered, fetching] <;> rfl

theorem fetchAnswered_error {a : Nat} (fetching : d.command.fetch = .fetching a) :
    fetchAnswered .error d = { d with command := { d.command with fetch := .unreadable } } := by
  simp only [fetchAnswered, fetching] <;> rfl

end

theorem tellJob_commandFetch {r : PortRequest} (job : r.job = .commandFetch) (a : MemAnswer) (d : Device) :
    tellJob r a d = fetchAnswered a d := by
  simp only [tellJob, job]

/-! ## COMMAND_DONE, a skipped record, a record taken -/

/-- A COMMAND_DONE enters the queue whatever the queue holds, and may end the chain's wait (R145, R146, R158). -/
theorem commandDone_eq (r : Report) (d : Device) : commandDone r d = { d with
    report := { d.report with queue := d.report.queue ++ [{ r with kind := .commandDone }] }
    command := { d.command with chain :=
      if d.command.chain = .waiting r.tag then (if r.status = .ok then .following else .skipping)
      else d.command.chain } } := by
  have after : chainAfter d.command.chain r.tag r.status =
      if d.command.chain = .waiting r.tag then (if r.status = .ok then .following else .skipping) else d.command.chain := by
    cases chain : d.command.chain with
    | waiting w => simp [chainAfter]
    | none => rfl
    | following => rfl
    | skipping => rfl
  rw [← after]
  rfl

theorem skipRecord_eq (h : CmdHead) (opcode : Nat) (d : Device) : skipRecord h opcode d = commandDone
    { kind := .commandDone, tag := h.tag, status := .skipped
      region := if 0x10 ≤ opcode ∧ opcode ≤ 0x12 then h.target.toNat else 0xFF
      stream := if 0x20 ≤ opcode ∧ opcode ≤ 0x26 then h.target.toNat else 0xFF }
    { d with command := { d.command with chain := if h.chain = true then .skipping else .none } } := by
  have region : (if targetsRegion opcode = true then h.target.toNat else 0xFF) =
      if 0x10 ≤ opcode ∧ opcode ≤ 0x12 then h.target.toNat else 0xFF := if_congr (by simp [targetsRegion]) rfl rfl
  have stream : (if targetsStream opcode = true then h.target.toNat else 0xFF) =
      if 0x20 ≤ opcode ∧ opcode ≤ 0x26 then h.target.toNat else 0xFF := if_congr (by simp [targetsStream]) rfl rfl
  rw [skipRecord, region, stream]
  rfl

section
variable {d : Device}

theorem takeRecord_barred {h : CmdHead} {opcode : Nat} {run : Device → Device}
    (barred : d.check.state ≠ .normal ∨ 16 ≤ d.report.queue.length ∨ ∃ t, d.command.chain = .waiting t) :
    takeRecord h opcode run d = d := by
  rw [takeRecord, if_pos]
  rwa [paused_iff, isWaiting_iff, or_assoc]

theorem takeRecord_skipping {h : CmdHead} {opcode : Nat} {run : Device → Device} (state : d.check.state = .normal)
    (queue : d.report.queue.length < 16) (skipping : d.command.chain = .skipping) :
    takeRecord h opcode run d = skipRecord h opcode d := by
  have free : ¬ (paused d = true ∨ d.command.chain.isWaiting = true) := by
    rw [paused_iff, isWaiting_iff, skipping]
    simp [state, queue]
  rw [takeRecord, if_neg free, if_pos skipping]

end

/-- Every command that presents a record takes it by `takeRecord`, with its own run. -/
theorem exec_presented {c : Instr} {h : CmdHead} {opcode : Nat} (s : State) (record : presented c = some (h, opcode)) :
    ∃ run, exec c s = event (takeRecord h opcode run) s := by
  unfold presented at record
  split at record <;> cases record
  · exact ⟨_, exec_nop ..⟩
  · exact ⟨_, exec_identify ..⟩
  · exact ⟨_, exec_configure ..⟩
  · exact ⟨_, exec_setRegion ..⟩
  · exact ⟨_, exec_setMode ..⟩
  · exact ⟨_, exec_queryRegion ..⟩
  · exact ⟨_, exec_attachFresh ..⟩
  · exact ⟨_, exec_attachResume ..⟩
  · exact ⟨_, exec_detach ..⟩
  · exact ⟨_, exec_extend ..⟩
  · exact ⟨_, exec_mark ..⟩
  · exact ⟨_, exec_release ..⟩
  · exact ⟨_, exec_rollback ..⟩
  · exact ⟨_, exec_queryStream ..⟩
  · exact ⟨_, exec_deviceClear ..⟩

/-- Settles O48: `takeRecord` decides for every command alike, and `commandDone` ends a wait for its tag. -/
theorem chainRules : Obligations.ChainRules := by
  unfold Obligations.ChainRules
  refine ⟨fun c h opcode s record => ?_, commandDone_eq⟩
  obtain ⟨run, taken⟩ := exec_presented s record
  rw [taken, event_next]
  refine ⟨fun barred => ?_, fun state queue skipping => ?_⟩
  · rw [takeRecord_barred barred]
  · rw [takeRecord_skipping state queue skipping, skipRecord_eq]

/-! ## COMMAND_RECORD_TAKEN -/

/-- The part once the head has moved and the fetch state is IDLE, with this chain state. -/
def headMoved (d : Device) (chain : ChainState) : Device :=
  let moved := offerHeadLine { d with command := { d.command with head := (d.command.head + 1) % 2 ^ d.command.exponent } }
  { moved with command := { moved.command with fetch := .idle, chain := chain } }

section
variable {d : Device}

theorem offerHeadLine_chain : (offerHeadLine d).command.chain = d.command.chain := by
  rw [offerHeadLine, tryHeadLineWriteIssue]
  split
  · rw [Option.getD_some, (offer_kept (.refl _) _).command]
    rfl
  · rfl

theorem advanceHead_chain : (advanceHead d).command.chain = d.command.chain := offerHeadLine_chain

theorem advanceHead_withChain (chain : ChainState) :
    (advanceHead d).withCommand (fun c => { c with chain := chain }) = headMoved d chain := rfl

theorem takeReadable_executed {r : Line} (runs : d.command.chain ≠ .skipping) : takeReadable r (advanceHead d) =
    runRecord r (headMoved d (if (recordHead r).chain = true then .waiting (recordHead r).tag else .none)) := by
  rw [takeReadable, advanceHead_chain, if_neg runs]
  rfl

theorem takeReadable_skipped {r : Line} (skipping : d.command.chain = .skipping) : takeReadable r (advanceHead d) =
    commandDone { kind := .commandDone, tag := (recordHead r).tag, status := .skipped
                  region := if 0x10 ≤ recordOpcode r ∧ recordOpcode r ≤ 0x12 then (recordHead r).target.toNat else 0xFF
                  stream := if 0x20 ≤ recordOpcode r ∧ recordOpcode r ≤ 0x26 then (recordHead r).target.toNat else 0xFF }
      (headMoved d (if (recordHead r).chain = true then .skipping else .none)) := by
  rw [takeReadable, advanceHead_chain, if_pos skipping, skipRecord_eq]
  rfl

theorem takeUnreadable_eq : takeUnreadable (headEntry d.command) d.command.head (advanceHead d) = commandDone
    { kind := .commandDone, tag := 0xFFFF, status := .fetchError, address := d.command.base + d.command.head * 64
      first := d.command.head } (headMoved d .skipping) := by
  rw [takeUnreadable, advanceHead_withChain, headEntry]

theorem tryCommandRecordTaken_barred (barred : takingAllowed d = false) : tryCommandRecordTaken d = none := by
  cases fetch : d.command.fetch <;> simp only [tryCommandRecordTaken, fetch, barred, Bool.false_eq_true, if_false]

theorem tryCommandRecordTaken_none (no_record : d.command.fetch = .idle ∨ ∃ a, d.command.fetch = .fetching a) :
    tryCommandRecordTaken d = none := by
  rcases no_record with fetch | ⟨a, fetch⟩ <;> simp only [tryCommandRecordTaken, fetch]

theorem tryCommandRecordTaken_emptied (allowed : takingAllowed d = true) (emptied : d.command.head = d.command.tail)
    (record : (∃ r, d.command.fetch = .held r) ∨ d.command.fetch = .unreadable) :
    tryCommandRecordTaken d = some { d with command := { d.command with fetch := .idle } } := by
  rcases record with ⟨r, fetch⟩ | fetch <;>
    simp only [tryCommandRecordTaken, fetch, allowed, emptied, if_true, discardRecord, Device.withCommand]

theorem tryCommandRecordTaken_unreadable (allowed : takingAllowed d = true) (records : d.command.head ≠ d.command.tail)
    (fetch : d.command.fetch = .unreadable) :
    tryCommandRecordTaken d = some (takeUnreadable (headEntry d.command) d.command.head (advanceHead d)) := by
  simp only [tryCommandRecordTaken, fetch, allowed, records, if_true, if_false]

theorem tryCommandRecordTaken_held {r : Line} (allowed : takingAllowed d = true) (records : d.command.head ≠ d.command.tail)
    (fetch : d.command.fetch = .held r) : tryCommandRecordTaken d = some (takeReadable r (advanceHead d)) := by
  simp only [tryCommandRecordTaken, fetch, allowed, records, if_true, if_false]

end

/-- Settles O46: the conditions of a fetch one by one, the two answers, and the cases of a record held. -/
theorem recordsFetchedAndTaken : Obligations.RecordsFetchedAndTaken := by
  unfold Obligations.RecordsFetchedAndTaken
  refine ⟨⟨fun s => ⟨?_, ?_⟩, fun s t r a outstanding job read fetching => ⟨fun l => ?_, ?_⟩⟩, fun s =>
    ⟨?_, ?_, fun state queue chain => ⟨?_, fun records => ⟨?_, fun r fetch => ⟨?_, ?_⟩⟩⟩⟩⟩
  · intro ring records idle state queue chain clear
    exact (exec_commandFetchIssue s).trans (innerEvent_done
      (tryCommandFetchIssue_issues ring records idle (takingAllowed_iff.mpr ⟨state, queue, chain⟩) (fenceClear_iff.mpr clear)))
  · intro barred
    refine (exec_commandFetchIssue s).trans (innerEvent_idle (tryCommandFetchIssue_none ?_))
    rcases barred with ring | empty | busy | state | queue | waits | ⟨t, q, n, request, write, admitted, older⟩
    · exact .inl ring
    · exact .inr (.inl empty)
    · exact .inr (.inr (.inl busy))
    · exact .inr (.inr (.inr (.inl (not_takingAllowed (.inl state)))))
    · exact .inr (.inr (.inr (.inl (not_takingAllowed (.inr (.inl queue))))))
    · exact .inr (.inr (.inr (.inl (not_takingAllowed (.inr (.inr waits))))))
    · refine .inr (.inr (.inr (.inr ?_)))
      rw [← Bool.not_eq_true, fenceClear_iff]
      exact fun clear => Nat.not_le.mpr older (clear t q n request write admitted)
  · exact (exec_commandFetchAnswer ..).trans (event_data outstanding read (by rw [job]; rfl) l
      ((tellJob_commandFetch job _ _).trans (fetchAnswered_data (d := returned t r s.dev) fetching l)))
  · exact (exec_commandFetchAnswer ..).trans (event_error outstanding (by rw [job]; rfl)
      ((tellJob_commandFetch job _ _).trans (fetchAnswered_error (d := returned t r s.dev) fetching)))
  · exact fun barred => (exec_commandRecordTaken s).trans (innerEvent_idle (tryCommandRecordTaken_barred (not_takingAllowed barred)))
  · exact fun no_record => (exec_commandRecordTaken s).trans (innerEvent_idle (tryCommandRecordTaken_none no_record))
  · exact fun emptied record => (exec_commandRecordTaken s).trans (innerEvent_done
      (tryCommandRecordTaken_emptied (takingAllowed_iff.mpr ⟨state, queue, chain⟩) emptied record))
  · exact fun fetch => (exec_commandRecordTaken s).trans (innerEvent_done
      (tryCommandRecordTaken_unreadable (takingAllowed_iff.mpr ⟨state, queue, chain⟩) records fetch))
  · exact fun runs => (exec_commandRecordTaken s).trans (innerEvent_done
      ((tryCommandRecordTaken_held (takingAllowed_iff.mpr ⟨state, queue, chain⟩) records fetch).trans
        (congrArg some (takeReadable_executed runs))))
  · exact fun skipping => (exec_commandRecordTaken s).trans (innerEvent_done
      ((tryCommandRecordTaken_held (takingAllowed_iff.mpr ⟨state, queue, chain⟩) records fetch).trans
        (congrArg some (takeReadable_skipped skipping))))

end Sys2Proof.Proofs

/-! PROOF. CONFIGURE (R149), and a record of the ring as the command it decodes to (R145, Table 11-2). Statements
`Obligations.SettingsConfigured` and `Obligations.RecordDecoded`. -/
namespace Sys2Proof.Proofs
open Sys2Proof Sys2Proof.Machine

/-! ## CONFIGURE -/

theorem expireRequest_kept {x d : Device} (kept : StreamsKept x d) (t : ReqTag) : StreamsKept x (expireRequest t d) := by
  rw [expireRequest]
  split
  · exact kept
  next q entry =>
    split
    · exact respond_kept kept ..
    · exact respond_kept (leaveLine_kept kept ..) ..
    · exact respond_kept (releaseLine_kept (capture_kept kept _) _) ..
    · split
      next k c owned =>
        split
        · exact cancelSlot_kept kept _
        · exact respond_kept (releaseLine_kept (mapSlot_kept kept ..) _) ..
      · exact respond_kept (releaseLine_kept kept _) ..
    · exact kept
    · exact kept

theorem expireIfOver_kept {x d : Device} (kept : StreamsKept x d) (t : ReqTag) : StreamsKept x (expireIfOver d t) := by
  rw [expireIfOver]
  split
  · split
    · exact expireRequest_kept kept t
    · exact kept
  · exact kept

section
variable {d : Device} {t : ReqTag} {q : Request}

theorem expireIfOver_exempt (entry : d.path.requests.get t = some q)
    (exempt : q.state = .ready ∨ q.state = .forwarded ∨ d.command.holdLimit = none) : expireIfOver d t = d := by
  cases limit : d.command.holdLimit with
  | none => simp only [expireIfOver, entry, holdLimitMicros, limit, Option.map_none]
  | some k =>
    have gone : q.forwarded = true := forwarded_iff.mpr (by simpa [limit] using exempt)
    simp [expireIfOver, entry, holdLimitMicros, limit, gone]

theorem expireIfOver_measured {k : Nat} (entry : d.path.requests.get t = some q) (limit : d.command.holdLimit = some k)
    (ready : q.state ≠ .ready) (forwarded : q.state ≠ .forwarded) :
    expireIfOver d t = if q.holdStart + 2 ^ k < d.now then expireRequest t d else d := by
  have held : q.forwarded = false := Bool.eq_false_iff.mpr fun gone => (forwarded_iff.mp gone).elim ready forwarded
  have measured : (!q.forwarded) = true ∧ 2 ^ k < d.now - q.holdStart ↔ q.holdStart + 2 ^ k < d.now := by
    rw [held]
    generalize 2 ^ k = micros
    simp only [Bool.not_false, true_and]
    omega
  simp only [expireIfOver, entry, holdLimitMicros, limit, Option.map_some]
  exact if_congr measured rfl rfl

end

/-- The settings of CONFIGURE's two codes. -/
def configured (hold notify : BitVec 8) (d : Device) : Device :=
  { d with command := { d.command with
      holdLimit := if hold = 16 then d.command.holdLimit else if hold = 15 then none else some hold.toNat
      notifyEnable := if notify = 2 then d.command.notifyEnable else notify = 1 } }

theorem configuredHold_eq (hold : BitVec 8) (now : Option Nat) : configuredHold hold.toNat now =
    if hold = 16 then now else if hold = 15 then none else some hold.toNat := by
  rw [configuredHold]
  exact if_congr (by bv_omega) rfl (if_congr (by bv_omega) rfl rfl)

theorem configuredNotify_eq (notify : BitVec 8) (now : Bool) : configuredNotify notify.toNat now =
    if notify = 2 then now else decide (notify = 1) := by
  have one : (notify.toNat == 1) = decide (notify = 1) := by
    rw [Bool.eq_iff_iff, beq_iff_eq, decide_eq_true_iff]
    bv_omega
  rw [configuredNotify, one]
  exact if_congr (by bv_omega) rfl rfl

theorem holdCode_eq (limit : Option Nat) : limit.getD 15 = match limit with | none => 15 | some k => k := by
  cases limit <;> rfl

section
variable {h : CmdHead} {hold notify : BitVec 8} {d : Device}

theorem runConfigure_refused (outside : 16 < hold.toNat ∨ 2 < notify.toNat) : runConfigure h hold notify d =
    commandDone { kind := .commandDone, tag := h.tag, status := .badArgument } d := by
  rw [runConfigure, if_neg (by omega), plainDone]

theorem runConfigure_set (holdCode_le : hold.toNat ≤ 16) (notifyCode_le : notify.toNat ≤ 2) : runConfigure h hold notify d =
    commandDone { kind := .commandDone, tag := h.tag, status := .ok
                  first := (configured hold notify d).command.holdLimit.getD 15
                  second := if (configured hold notify d).command.notifyEnable = true then 1 else 0 }
      ((List.finRange 64).foldl expireIfOver (configured hold notify d)) := by
  have set : (d.withCommand fun c => { c with
      holdLimit := configuredHold hold.toNat c.holdLimit, notifyEnable := configuredNotify notify.toNat c.notifyEnable }) =
      configured hold notify d := by
    simp only [configuredHold_eq, configuredNotify_eq] <;> rfl
  have command := (StreamsKept.foldl (List.finRange 64) (.refl (configured hold notify d))
    fun d t kept => expireIfOver_kept kept t).command
  rw [runConfigure, if_pos ⟨holdCode_le, notifyCode_le⟩, set, indices]
  simp only [command, holdCode, plainDone]

end

/-- Settles O50: the settings in force are read after the expiries, which leave the Command Unit as it is. -/
theorem settingsConfigured : Obligations.SettingsConfigured := by
  unfold Obligations.SettingsConfigured
  intro s h hold notify taking
  refine ⟨fun outside => ?_, fun holdCode_le notifyCode_le => ⟨?_, fun t q entry => ⟨fun exempt => ?_, ?_⟩⟩⟩
  · exact (exec_configure ..).trans (event_taken taking (runConfigure_refused outside))
  · refine (exec_configure ..).trans (event_taken taking ((runConfigure_set holdCode_le notifyCode_le).trans ?_))
    congr 2
    exact holdCode_eq (configured hold notify (chained h s.dev)).command.holdLimit
  · exact expireIfOver_exempt (d := configured hold notify (chained h s.dev)) entry exempt
  · exact fun k limit ready forwarded =>
      expireIfOver_measured (d := configured hold notify (chained h s.dev)) entry limit ready forwarded

/-! ## The fields of a record -/

section
variable {r : Line} {d : Device}

theorem byte_eq (r : Line) (o : Nat) : BitVec.ofNat 8 (bytesAt r o 1) = r.extractLsb' (8 * o) 8 := bytesAt_extract r o 1
theorem half_eq (r : Line) (o : Nat) : BitVec.ofNat 16 (bytesAt r o 2) = r.extractLsb' (8 * o) 16 := bytesAt_extract r o 2
theorem word_eq (r : Line) (o : Nat) : BitVec.ofNat 32 (bytesAt r o 4) = r.extractLsb' (8 * o) 32 := bytesAt_extract r o 4
theorem quad_eq (r : Line) (o : Nat) : BitVec.ofNat 64 (bytesAt r o 8) = r.extractLsb' (8 * o) 64 := bytesAt_extract r o 8

theorem bytesAt_byte (r : Line) (o : Nat) : bytesAt r o 1 = (r.extractLsb' (8 * o) 8).toNat := by
  have inside : bytesAt r o 1 < 2 ^ 8 := Nat.mod_lt _ (by decide)
  rw [← byte_eq, BitVec.toNat_ofNat, Nat.mod_eq_of_lt inside]

theorem recordOpcode_eq (r : Line) : recordOpcode r = (r.extractLsb' (8 * 0) 8).toNat := bytesAt_byte r 0

theorem recordHead_chain (r : Line) : (recordHead r).chain = r.getLsbD 8 := by
  have low := testBit_bytesAt r 1 1 0
  rw [Nat.testBit_zero] at low
  exact low.trans (by simp)

/-! ## The decoding of an opcode -/

theorem runRecord_nop (opcode : recordOpcode r = 0x00) : runRecord r d = runNop (recordHead r) d := by
  simp only [runRecord, opcode]

theorem runRecord_identify (opcode : recordOpcode r = 0x01) : runRecord r d = runIdentify (recordHead r) d := by
  simp only [runRecord, opcode]

theorem runRecord_configure (opcode : recordOpcode r = 0x02) : runRecord r d =
    runConfigure (recordHead r) (r.extractLsb' (8 * 8) 8) (r.extractLsb' (8 * 9) 8) d := by
  simp only [runRecord, opcode, byte_eq]

theorem runRecord_setRegion (opcode : recordOpcode r = 0x10) : runRecord r d =
    runSetRegion (recordHead r) (r.extractLsb' (8 * 8) 64) (r.extractLsb' (8 * 0x10) 8) (r.extractLsb' (8 * 0x11) 8) d := by
  simp only [runRecord, opcode, byte_eq, quad_eq]

theorem runRecord_setMode (opcode : recordOpcode r = 0x11) :
    runRecord r d = runSetMode (recordHead r) (r.extractLsb' (8 * 8) 8) d := by
  simp only [runRecord, opcode, byte_eq]

theorem runRecord_queryRegion (opcode : recordOpcode r = 0x12) : runRecord r d = runQueryRegion (recordHead r) d := by
  simp only [runRecord, opcode]

theorem runRecord_attach (opcode : recordOpcode r = 0x20) : runRecord r d = runAttach (recordHead r) r d := by
  simp only [runRecord, opcode]

theorem runRecord_detach (opcode : recordOpcode r = 0x21) : runRecord r d = runDetach (recordHead r) d := by
  simp only [runRecord, opcode]

theorem runRecord_extend (opcode : recordOpcode r = 0x22) :
    runRecord r d = runExtend (recordHead r) (r.extractLsb' (8 * 8) 64) d := by
  simp only [runRecord, opcode, quad_eq]

theorem runRecord_mark (opcode : recordOpcode r = 0x23) :
    runRecord r d = runMark (recordHead r) (r.extractLsb' (8 * 8) 32) d := by
  simp only [runRecord, opcode, word_eq]

theorem runRecord_release (opcode : recordOpcode r = 0x24) :
    runRecord r d = runRelease (recordHead r) (r.extractLsb' (8 * 8) 32) d := by
  simp only [runRecord, opcode, word_eq]

theorem runRecord_rollback (opcode : recordOpcode r = 0x25) :
    runRecord r d = runRollback (recordHead r) (r.extractLsb' (8 * 8) 32) d := by
  simp only [runRecord, opcode, word_eq]

theorem runRecord_queryStream (opcode : recordOpcode r = 0x26) :
    runRecord r d = runQueryStream (recordHead r) (r.extractLsb' (8 * 8) 8) d := by
  simp only [runRecord, opcode, byte_eq]

theorem runRecord_deviceClear (opcode : recordOpcode r = 0x3F) : runRecord r d = runDeviceClear d := by
  simp only [runRecord, opcode]

theorem runRecord_unknown (unknown : recordOpcode r ∉ [0, 1, 2, 0x10, 0x11, 0x12, 0x20, 0x21, 0x22, 0x23, 0x24, 0x25, 0x26, 0x3F]) :
    runRecord r d = runUnknown (recordHead r) (recordOpcode r) d := by
  rw [runRecord]
  split
  rotate_right
  · rfl
  all_goals simp_all

/-! ## The variants of ATTACH -/

theorem runAttach_fresh {h : CmdHead} (variant : bytesAt r 0x08 1 = 0) : runAttach h r d = runAttachFresh h
    (r.extractLsb' (8 * 9) 8) (r.extractLsb' (8 * 0xA) 8) (r.extractLsb' (8 * 0xC) 32) (r.extractLsb' (8 * 0x10) 64)
    (r.extractLsb' (8 * 0x18) 64) d := by
  simp only [runAttach, variant, byte_eq, word_eq, quad_eq]

theorem runAttach_resume {h : CmdHead} (variant : bytesAt r 0x08 1 = 1) :
    runAttach h r d = runAttachResume h (r.extractLsb' (8 * 0x10) 64) d := by
  simp only [runAttach, variant, quad_eq]

theorem runAttach_neither {h : CmdHead} (fresh : bytesAt r 0x08 1 ≠ 0) (resume : bytesAt r 0x08 1 ≠ 1) :
    runAttach h r d = refuse h .badArgument d := by
  rw [runAttach]
  split
  next variant => exact absurd variant fresh
  next variant => exact absurd variant resume
  next => rfl

end

/-- A record whose run is a command's run does what the command does (R145). -/
theorem executed_eq {s : State} {c : Instr} {h : CmdHead} {opcode : Nat} {r : Line} {run : Device → Device} (taking : Taking s.dev)
    (command : exec c s = event (takeRecord h opcode run) s) (decoded : ∀ d, runRecord r d = run d) :
    (.next { s with dev := finish (runRecord r (chained h s.dev)) } : Host.Outcome State Fault Refusal) = exec c s := by
  rw [command, event_taken taking (decoded _).symm]

/-- Settles O47: the bytes of a record are its fields, and each opcode runs its command's row. -/
theorem recordDecoded : Obligations.RecordDecoded := by
  unfold Obligations.RecordDecoded
  intro s r taking
  have coded {k : Nat} (byte : r.extractLsb' (8 * 0) 8 = BitVec.ofNat 8 k) (small : k < 256) : recordOpcode r = k := by
    rw [recordOpcode_eq, byte, BitVec.toNat_ofNat, Nat.mod_eq_of_lt small]
  refine ⟨⟨half_eq r 2, recordHead_chain r, byte_eq r 4⟩, ?_, ?_, ?_, ?_, ?_, ?_, ?_, ?_, ?_, ?_, ?_, ?_, ?_, ?_, ?_, ?_, ?_⟩
  · exact fun byte => executed_eq taking (exec_nop ..) fun d => runRecord_nop (coded byte (by decide))
  · exact fun byte => executed_eq taking (exec_identify ..) fun d => runRecord_identify (coded byte (by decide))
  · exact fun byte => executed_eq taking (exec_configure ..) fun d => runRecord_configure (coded byte (by decide))
  · exact fun byte => executed_eq taking (exec_setRegion ..) fun d => runRecord_setRegion (coded byte (by decide))
  · exact fun byte => executed_eq taking (exec_setMode ..) fun d => runRecord_setMode (coded byte (by decide))
  · exact fun byte => executed_eq taking (exec_queryRegion ..) fun d => runRecord_queryRegion (coded byte (by decide))
  · exact fun byte variant => executed_eq taking (exec_attachFresh ..) fun d =>
      (runRecord_attach (coded byte (by decide))).trans (runAttach_fresh ((bytesAt_byte r 8).trans (congrArg BitVec.toNat variant)))
  · exact fun byte variant => executed_eq taking (exec_attachResume ..) fun d =>
      (runRecord_attach (coded byte (by decide))).trans (runAttach_resume ((bytesAt_byte r 8).trans (congrArg BitVec.toNat variant)))
  · intro byte fresh resume
    have decoded : runRecord r (chained (recordHead r) s.dev) = refuse (recordHead r) .badArgument (chained (recordHead r) s.dev) :=
      (runRecord_attach (coded byte (by decide))).trans (runAttach_neither
        (fun variant => fresh (BitVec.eq_of_toNat_eq ((bytesAt_byte r 8).symm.trans variant)))
        (fun variant => resume (BitVec.eq_of_toNat_eq ((bytesAt_byte r 8).symm.trans variant))))
    exact congrArg (fun d => Host.Outcome.next { s with dev := finish d }) decoded
  · exact fun byte => executed_eq taking (exec_detach ..) fun d => runRecord_detach (coded byte (by decide))
  · exact fun byte => executed_eq taking (exec_extend ..) fun d => runRecord_extend (coded byte (by decide))
  · exact fun byte => executed_eq taking (exec_mark ..) fun d => runRecord_mark (coded byte (by decide))
  · exact fun byte => executed_eq taking (exec_release ..) fun d => runRecord_release (coded byte (by decide))
  · exact fun byte => executed_eq taking (exec_rollback ..) fun d => runRecord_rollback (coded byte (by decide))
  · exact fun byte => executed_eq taking (exec_queryStream ..) fun d => runRecord_queryStream (coded byte (by decide))
  · exact fun byte => executed_eq taking (exec_deviceClear ..) fun d => runRecord_deviceClear (coded byte (by decide))
  · intro unknown
    have decoded : runRecord r (chained (recordHead r) s.dev) =
        runUnknown (recordHead r) (r.extractLsb' (8 * 0) 8).toNat (chained (recordHead r) s.dev) := by
      rw [runRecord_unknown (by rwa [recordOpcode_eq]), recordOpcode_eq]
    exact congrArg (fun d => Host.Outcome.next { s with dev := finish d }) decoded

end Sys2Proof.Proofs

/-! PROOF. SET_MODE, MARK and RELEASE at their taking (R11, R12, R91, R92, R97, R98). Statements `Obligations.ModeSet`,
`Obligations.MarkTaken` and `Obligations.ReleaseTaken`. -/
namespace Sys2Proof.Proofs
open Sys2Proof Sys2Proof.Machine

/-! ## SET_MODE -/

theorem modeOfCode_eq_some {m : Mode} {n : Nat} (code : n = m.code) : Mode.ofCode n = some m := by
  subst code
  cases m <;> rfl

theorem modeOfCode_eq_none {n : Nat} (unknown : 4 < n) : Mode.ofCode n = none := by
  obtain ⟨k, rfl⟩ := Nat.exists_eq_add_of_le' unknown
  rfl

/-- The region's stream or its degradation refuses a SET_MODE (R11). -/
def ModeBusy (d : Device) (e : Region) : Prop := e.degrading = true ∨ ∃ st, e.stream = some st
  ∧ ((d.streams.get st).state = .rollingBack ∨ (d.streams.get st).state = .resuming)

theorem modeBusy_iff {d : Device} {e : Region} : modeBusy d e = true ↔ ModeBusy d e := by
  rw [modeBusy, ModeBusy, Bool.or_eq_true]
  cases e.stream with
  | none => simp
  | some st => simp

section
variable {d : Device} {h : CmdHead} {mode : BitVec 8} {r : RegionNo} {m : Mode}

theorem modeStatus_busy (busy : ModeBusy d (d.regions.get r)) : modeStatus d r m = .streamBusy :=
  if_pos (modeBusy_iff.mpr busy)

theorem modeStatus_noStream (free : ¬ ModeBusy d (d.regions.get r)) (journal : m = .journal)
    (none_bound : (d.regions.get r).stream = none) : modeStatus d r m = .noStream := by
  rw [modeStatus, if_neg (mt modeBusy_iff.mp free), if_pos ⟨journal, none_bound⟩]

theorem modeStatus_overlap (free : ¬ ModeBusy d (d.regions.get r)) (bound : ¬ (m = .journal ∧ (d.regions.get r).stream = none))
    (decodes : m ≠ .off) (overlaps : Overlaps d r (d.regions.get r).base (d.regions.get r).exponent) :
    modeStatus d r m = .overlap := by
  rw [modeStatus, if_neg (mt modeBusy_iff.mp free), if_neg bound, if_pos ⟨decodes, overlapPasses_eq_false_iff.mpr overlaps⟩]

theorem modeStatus_ok (free : ¬ ModeBusy d (d.regions.get r)) (bound : ¬ (m = .journal ∧ (d.regions.get r).stream = none))
    (clear : m = .off ∨ ¬ Overlaps d r (d.regions.get r).base (d.regions.get r).exponent) : modeStatus d r m = .ok := by
  rw [modeStatus, if_neg (mt modeBusy_iff.mp free), if_neg bound, if_neg]
  rintro ⟨decodes, fails⟩
  exact clear.elim decodes fun passes => passes (overlapPasses_eq_false_iff.mp fails)

theorem runSetMode_badArgument (bad : 16 ≤ h.target.toNat ∨ 4 < mode.toNat) :
    runSetMode h mode d = commandDone (regionDone h .badArgument) d := by
  rcases bad with outside | unknown
  · simp only [runSetMode, targetRegion_eq_none outside]
  · cases target : targetRegion h <;> simp only [runSetMode, target, modeOfCode_eq_none unknown]

theorem runSetMode_refused {status : Status} (target : h.target.toNat = r.1) (code : mode.toNat = m.code)
    (judged : modeStatus d r m = status) (refused : status ≠ .ok) :
    runSetMode h mode d = commandDone (regionDone h status) d := by
  simp only [runSetMode, targetRegion_eq_some_iff.mpr target, modeOfCode_eq_some code, judged, if_neg refused]

theorem runSetMode_accepted (target : h.target.toNat = r.1) (code : mode.toNat = m.code) (judged : modeStatus d r m = .ok) :
    runSetMode h mode d = acceptMode r m h.tag (commandDone (regionDone h .ok) d) := by
  simp only [runSetMode, targetRegion_eq_some_iff.mpr target, modeOfCode_eq_some code, judged, if_true]

/-- A requested mode that is in force is reached at once, and stays without a pending change (R12). -/
theorem acceptMode_inForce {tag : BitVec 16} (inForce : m = (d.regions.get r).effective) : acceptMode r m tag d =
    pushReport { kind := .modeReached, tag := tag, region := r.1, stream := streamByte (d.regions.get r).stream
                 address := (d.regions.get r).base, first := m.code, second := m.code }
      { supersede r tag.toNat d with
          regions := d.regions.set r { d.regions.get r with requested := m, change := .none } } := by
  have regions := supersede_regions (r := r) (d := d) tag.toNat
  have held : (supersede r tag.toNat d).withRegion r (fun e => { e with requested := m, change := .none }) =
      { supersede r tag.toNat d with
          regions := d.regions.set r { d.regions.get r with requested := m, change := .none } } := by
    rw [Device.withRegion, regions]
  rw [acceptMode, if_pos (by rwa [regions]), held]
  simp only [reportReached, reachedReport, Table.get_set]

/-- Another one is pending under the command's tag, and R7 is tested (R12). -/
theorem acceptMode_pending {tag : BitVec 16} (other : m ≠ (d.regions.get r).effective) : acceptMode r m tag d =
    testChange r { supersede r tag.toNat d with
      regions := d.regions.set r { d.regions.get r with requested := m, change := .tagged tag } } := by
  have regions := supersede_regions (r := r) (d := d) tag.toNat
  rw [acceptMode, if_neg (by rwa [regions]), Device.withRegion, regions]

end

/-- Settles O53: the checks of `modeStatus` in their order, then `acceptMode` in its two cases. -/
theorem modeSet : Obligations.ModeSet := by
  unfold Obligations.ModeSet
  intro s h mode taking
  refine ⟨fun bad => ?_, fun r m target code => ⟨fun busy => ?_, fun free journal none_bound => ?_,
    fun free bound decodes overlaps => ?_, fun free bound clear => ⟨fun inForce => ?_, fun other => ?_⟩⟩⟩
  · exact (exec_setMode ..).trans (event_taken taking (runSetMode_badArgument bad))
  · exact (exec_setMode ..).trans (event_taken taking
      (runSetMode_refused target code (modeStatus_busy (d := chained h s.dev) busy) (by decide)))
  · exact (exec_setMode ..).trans (event_taken taking
      (runSetMode_refused target code (modeStatus_noStream (d := chained h s.dev) free journal none_bound) (by decide)))
  · exact (exec_setMode ..).trans (event_taken taking
      (runSetMode_refused target code (modeStatus_overlap (d := chained h s.dev) free bound decodes overlaps) (by decide)))
  · refine (exec_setMode ..).trans (event_taken taking
      ((runSetMode_accepted target code (modeStatus_ok (d := chained h s.dev) free bound clear)).trans
        ((acceptMode_inForce (d := commandDone (regionDone h .ok) (chained h s.dev)) inForce).trans ?_)))
    rfl
  · refine (exec_setMode ..).trans (event_taken taking
      ((runSetMode_accepted target code (modeStatus_ok (d := chained h s.dev) free bound clear)).trans
        ((acceptMode_pending (d := commandDone (regionDone h .ok) (chained h s.dev)) other).trans ?_)))
    rfl

/-! ## MARK -/

section
variable {d : Device} {h : CmdHead} {label : BitVec 32} {st : StreamNo}

theorem not_running {x : Stream} (active : x.state ≠ .active) (exhausted : x.state ≠ .exhausted) : (!x.running) = true := by
  simp [Stream.running, active, exhausted]

theorem running_of {x : Stream} (runs : x.state = .active ∨ x.state = .exhausted) : ¬ (!x.running) = true := by
  simp [running_iff.mpr runs]

theorem runMark_badArgument (outside : 4 ≤ h.target.toNat) : runMark h label d = refuse h .badArgument d := by
  simp only [runMark, targetStream_eq_none outside]

theorem runMark_busy (target : targetStream h = some st) (occupied : ¬ Unoccupied (d.streams.get st)) :
    runMark h label d = refuse h .streamBusy d := by
  simp only [runMark, target, if_pos (busy_iff.mpr occupied)]

theorem runMark_state (target : targetStream h = some st) (free : Unoccupied (d.streams.get st))
    (active : (d.streams.get st).state ≠ .active) (exhausted : (d.streams.get st).state ≠ .exhausted) :
    runMark h label d = refuse h .streamState d := by
  simp only [runMark, target, if_neg (not_busy free), if_pos (not_running active exhausted)]

theorem runMark_running (target : targetStream h = some st) (free : Unoccupied (d.streams.get st))
    (runs : (d.streams.get st).state = .active ∨ (d.streams.get st).state = .exhausted) : runMark h label d =
      if 4294967295 ≤ (d.streams.get st).epoch.getD 0 then refuse h .epochLimit d else takeMark st h.tag label d := by
  simp only [runMark, target, if_neg (not_busy free), if_neg (running_of runs)]
  exact if_congr Iff.rfl rfl rfl

theorem takeMark_eq {tag : BitVec 16} {e : Nat} (epoch : (d.streams.get st).epoch = some e) : takeMark st tag label d =
    (removeEntries (fun f => (d.regions.get f.region).stream == some st) d).withStream st fun _ => { d.streams.get st with
      operation := some ⟨.mark, tag, e + 1, label, 0, 0, 0⟩
      epoch := some (e + 1)
      saturated := false
      pendingMark := some ⟨e + 1, label, tag, none⟩ } := by
  have same : removeStreamEntries st d = removeEntries (fun f => (d.regions.get f.region).stream == some st) d := rfl
  rw [takeMark, same, epoch]
  simp only [Device.withStream, removeEntries_streams, Option.getD_some]

end

/-- Settles O54: the checks of MARK in their order; a mark that is taken changes its stream and the filter alone. -/
theorem markTaken : Obligations.MarkTaken := by
  unfold Obligations.MarkTaken
  intro s h label taking
  refine ⟨fun outside => ?_, fun st target => ⟨fun occupied => ?_, fun free active exhausted => ?_,
    fun free runs e epoch => ⟨fun top => ?_, fun below => ?_⟩⟩⟩
  · exact (exec_mark ..).trans (event_taken taking (runMark_badArgument outside))
  · exact (exec_mark ..).trans (event_taken taking (runMark_busy (targetStream_eq_some target) (d := chained h s.dev) occupied))
  · exact (exec_mark ..).trans (event_taken taking
      (runMark_state (targetStream_eq_some target) (d := chained h s.dev) free active exhausted))
  · exact (exec_mark ..).trans (event_taken taking
      ((runMark_running (targetStream_eq_some target) (d := chained h s.dev) free runs).trans
        (if_pos (top.trans_eq (congrArg (·.getD 0) epoch).symm))))
  · exact (exec_mark ..).trans (event_taken taking
      ((runMark_running (targetStream_eq_some target) (d := chained h s.dev) free runs).trans
        ((if_neg (Nat.not_le.mpr ((congrArg (·.getD 0) epoch).trans_lt below))).trans
          (takeMark_eq (d := chained h s.dev) epoch))))

/-! ## RELEASE -/

section
variable {d : Device} {h : CmdHead} {epoch : BitVec 32} {st : StreamNo}

theorem runRelease_badArgument (bad : 4 ≤ h.target.toNat ∨ epoch = 0) : runRelease h epoch d = refuse h .badArgument d := by
  rcases bad with outside | zero
  · simp only [runRelease, targetStream_eq_none outside]
  · cases target : targetStream h <;> simp only [runRelease, target, zero, if_true]

theorem runRelease_busy (named : epoch ≠ 0) (target : targetStream h = some st) (occupied : ¬ Unoccupied (d.streams.get st)) :
    runRelease h epoch d = refuse h .streamBusy d := by
  simp only [runRelease, target, if_neg named, if_pos (busy_iff.mpr occupied)]

theorem runRelease_state (named : epoch ≠ 0) (target : targetStream h = some st) (free : Unoccupied (d.streams.get st))
    (active : (d.streams.get st).state ≠ .active) (exhausted : (d.streams.get st).state ≠ .exhausted) :
    runRelease h epoch d = refuse h .streamState d := by
  simp only [runRelease, target, if_neg named, if_neg (not_busy free), if_pos (not_running active exhausted)]

theorem runRelease_running (named : epoch ≠ 0) (target : targetStream h = some st) (free : Unoccupied (d.streams.get st))
    (runs : (d.streams.get st).state = .active ∨ (d.streams.get st).state = .exhausted) : runRelease h epoch d =
      if (∃ m ∈ (d.streams.get st).marks, m.epoch = epoch.toNat) then takeRelease st h.tag epoch.toNat d
      else refuse h .noSuchMark d := by
  simp only [runRelease, target, if_neg named, if_neg (not_busy free), if_neg (running_of runs), List.any_eq_true, beq_iff_eq]

/-- The marks before the named one are retired, and the history is freed with the named one the oldest (R98). -/
theorem takeRelease_eq {tag : BitVec 16} {n : Nat} {older rest : List MarkEntry} {m : MarkEntry}
    (marks : (d.streams.get st).marks = older ++ m :: rest) (named : m.epoch = n) (before : ∀ o ∈ older, o.epoch < n) :
    takeRelease st tag n d =
      let y : Stream := { d.streams.get st with marks := m :: rest }
      (older.zipIdx.foldl (fun d' o => pushReport (retiredReport st 2 (d.streams.get st).marks.length o) d') d).withStream st
        fun _ => { y.freeSegments with
          operation := some ⟨.release, tag, n, 0, 0, older.length, y.freeable⟩
          anchorWaiting := joined .release (d.streams.get st).anchorWaiting } := by
  have retired := retireWhile_eq (p := fun m => decide (m.epoch < n)) (cause := .released) older (m :: rest) 0
    (d.streams.get st).marks.length d marks (fun o mem => decide_eq_true (before o mem))
    (fun o head => decide_eq_false (by
      obtain rfl : m = o := Option.some.inj head
      exact Nat.not_lt.mpr (Nat.le_of_eq named.symm))) (by rw [marks, List.length_append]; omega)
  rw [← marks, Nat.zero_add] at retired
  have count : (d.streams.get st).marks.length - (m :: rest).length = older.length := by
    rw [marks, List.length_append, Nat.add_sub_cancel]
  simp only [takeRelease, retired, offerAnchor_eq, Device.withStream, Table.get_set, Table.set_set, foldl_pushReport_streams, count]
  rfl

end

/-- Settles O55: the checks of RELEASE in their order; one that is taken retires by `retireWhile`. -/
theorem releaseTaken : Obligations.ReleaseTaken := by
  unfold Obligations.ReleaseTaken
  intro s h epoch taking
  refine ⟨fun bad => ?_, fun named st target => ⟨fun occupied => ?_, fun free active exhausted => ?_,
    fun free runs => ⟨fun absent => ?_, fun older m rest marks epoch_eq before => ?_⟩⟩⟩
  · exact (exec_release ..).trans (event_taken taking (runRelease_badArgument bad))
  · exact (exec_release ..).trans (event_taken taking
      (runRelease_busy named (targetStream_eq_some target) (d := chained h s.dev) occupied))
  · exact (exec_release ..).trans (event_taken taking
      (runRelease_state named (targetStream_eq_some target) (d := chained h s.dev) free active exhausted))
  · exact (exec_release ..).trans (event_taken taking
      ((runRelease_running named (targetStream_eq_some target) (d := chained h s.dev) free runs).trans
        (if_neg fun ⟨m, mem, epoch_eq⟩ => absent m mem epoch_eq)))
  · have held : ∃ m ∈ (s.dev.streams.get st).marks, m.epoch = epoch.toNat :=
      ⟨m, marks ▸ List.mem_append_right _ List.mem_cons_self, epoch_eq⟩
    exact (exec_release ..).trans (event_taken taking
      ((runRelease_running named (targetStream_eq_some target) (d := chained h s.dev) free runs).trans
        ((if_pos held).trans (takeRelease_eq (d := chained h s.dev) marks epoch_eq before))))

end Sys2Proof.Proofs

/-! PROOF. Head-line writes and report writes (R143, R155, R156, R159). Statements `Obligations.HeadLineWritten` and
`Obligations.ReportWritten`. -/
namespace Sys2Proof.Proofs
open Sys2Proof Sys2Proof.Machine

/-! ## The head-line write -/

section
variable {d : Device}

/-- The request of a head-line write (Table 11-6); its data are those of its grant. -/
def headLineRequest (d : Device) : PortRequest := ⟨.headLine, windowBase d.winsel + 0x40, true, BitVec.allOnes 64, 0⟩

theorem headLineRequest_eq (d : Device) : writeOf .headLine (headLineAddress d) 0 = headLineRequest d := by
  rw [writeOf, fullMask_eq]
  rfl

/-- A head-line write that is over leaves its position (R143). -/
def headLineFree (d : Device) : Device := { d with command := { d.command with headOutstanding := false } }

/-- What is left once a head-line write is over: a waiting one that has not asked asks for its line (R143). -/
theorem headLineOver_cases : (d.command.headWaiting = true → d.command.headAsked = false → headLineOver d =
      offer (headLineRequest d)
        { headLineFree d with command := { (headLineFree d).command with headAsked := true } })
    ∧ ((d.command.headWaiting = false ∨ d.command.headAsked = true) → headLineOver d = headLineFree d) := by
  refine ⟨fun waits asked => ?_, headLineOver_quiet⟩
  rw [headLineOver_asks waits asked, headLineRequest_eq]
  rfl

theorem headLineAnswered_done : headLineAnswered .done d = headLineOver d := rfl

theorem headLineAnswered_error : headLineAnswered .error d = deviceCheck .reportWrite .none (headLineFree d) := rfl

/-- The grant of the waiting head-line write: it becomes the outstanding one, with head and producer index as they stand. -/
theorem issue_headLine {t : MemTag} {x : PortRequest} (job : x.job = .headLine) : issue t x d =
    let data : Line := headLine d.command.head d.report.producer
    { d with
      command := { d.command with headWaiting := false, headAsked := false, headOutstanding := true }
      arbiter := {
        waiting := d.arbiter.waiting.erase x
        issued := d.arbiter.issued ++ [⟨t, { x with data := data }, false, false, d.now⟩]
        age := if (oldestOf d .c5).isSome = true then min 8 (d.arbiter.age + 1) else d.arbiter.age }
      sent := d.sent ++ [⟨t, x.write, x.line, x.mask, data⟩] } := by
  have port : x.job.portClass = .c1 := by rw [job]; rfl
  have told (e : Device) : granted x e =
      { e with command := { e.command with headWaiting := false, headAsked := false, headOutstanding := true } } := by
    simp only [granted, job]
    rfl
  have data : issueData d x = headLine d.command.head d.report.producer := by simp only [issueData, job]
  rw [issue, told, data, ageAfter, port, if_neg (by decide)]
  rfl

end

section
variable {s : State} {t : MemTag} {r : PortRequest}

theorem tellJob_headLine (job : r.job = .headLine) (a : MemAnswer) (d : Device) : tellJob r a d = headLineAnswered a d := by
  simp only [tellJob, job]

theorem tellJob_lateHeadLine (job : r.job = .lateHeadLine) (a : MemAnswer) (d : Device) : tellJob r a d = headLineOver d := by
  simp only [tellJob, job]

/-- The answer to a head-line write that was outstanding at a device clear, an ERROR too (R143). -/
theorem event_lateHeadLine (outstanding : Outstanding s.dev t r) (job : r.job = .lateHeadLine) (write : r.write = true)
    {a : MemAnswer} (answers : ∀ l, a ≠ .data l) :
    event (memoryAnswer t a) s = .next { s with dev := finish (headLineOver (returned t r s.dev)) } := by
  have owns : r.job.releasesAtAnswer = true := by rw [job]; rfl
  cases a with
  | data l => exact absurd rfl (answers l)
  | done => exact event_done outstanding write owns (tellJob_lateHeadLine job _ _)
  | error => exact event_error outstanding owns (tellJob_lateHeadLine job _ _)

end

/-- Settles O56: the asking, the grant, the answers to the outstanding write, and the answers that come after a clear or an
abandonment, which end in `headLineOver` too. -/
theorem headLineWritten : Obligations.HeadLineWritten := by
  unfold Obligations.HeadLineWritten
  refine ⟨fun s => ⟨fun waits asked outstanding => ?_, fun busy => ?_⟩, fun s tag x choice job free => ?_,
    fun s t r outstanding job write => ?_, fun s t r a => ⟨fun outstanding job write answers => ?_,
      fun i issued abandoned request job => ?_⟩⟩
  · refine (exec_headLineWriteIssue s).trans (innerEvent_done ((tryHeadLineWriteIssue_asks waits asked outstanding).trans ?_))
    rw [headLineRequest_eq]
    rfl
  · exact (exec_headLineWriteIssue s).trans (innerEvent_idle (tryHeadLineWriteIssue_none busy))
  · rw [exec_arbiterGrant, innerEvent_done (tryArbiterGrant_done choice free), issue_headLine job]
  · have owns : r.job.releasesAtAnswer = true := by rw [job]; rfl
    obtain ⟨asks, quiet⟩ := headLineOver_cases (d := returned t r s.dev)
    refine ⟨fun waits asked => ?_, fun none_asks => ?_, ?_⟩
    · exact (exec_headLineWriteAnswer ..).trans ((readingEvent_none ..).trans
        (event_done outstanding write owns ((tellJob_headLine job _ _).trans (asks waits asked))))
    · exact (exec_headLineWriteAnswer ..).trans ((readingEvent_none ..).trans
        (event_done outstanding write owns ((tellJob_headLine job _ _).trans (quiet none_asks))))
    · exact (exec_headLineWriteAnswer ..).trans ((readingEvent_none ..).trans
        (event_error outstanding owns ((tellJob_headLine job _ _).trans headLineAnswered_error)))
  · exact ⟨_, headLineOver_cases, (exec_headLineWriteAnswer ..).trans ((readingEvent_none ..).trans
      (event_lateHeadLine outstanding job write answers))⟩
  · subst request
    refine ⟨_, headLineOver_cases, (exec_abandonedTagAnswer ..).trans ?_⟩
    rw [event_next, memoryAnswer_abandonedHeadLine a issued abandoned job]

/-! ## The report write -/

section
variable {d : Device}

theorem tryReportWriteIssue_issues {r : Report} {rest : List Report} (queue : d.report.queue = r :: rest)
    (ring : d.report.ringSet = true) (space : unacknowledged d.report < 2 ^ d.report.exponent)
    (free : d.report.writing = false) : tryReportWriteIssue d =
      let r' : Report := { r with
        number := d.report.sequence + 1, lap := decide (d.report.producer < 2 ^ d.report.exponent) }
      some (offer ⟨.report, d.report.base + d.report.producer % 2 ^ d.report.exponent * 64, true, BitVec.allOnes 64, r'.encode⟩
        { d with report := { d.report with queue := r' :: rest, sequence := d.report.sequence + 1, writing := true } }) := by
  simp only [tryReportWriteIssue, queue]
  rw [if_pos ⟨ring, decide_eq_true space, free⟩, writeOf, fullMask_eq]
  rfl

theorem tryReportWriteIssue_none (barred : d.report.queue = [] ∨ d.report.ringSet = false
    ∨ 2 ^ d.report.exponent ≤ unacknowledged d.report ∨ d.report.writing = true) : tryReportWriteIssue d = none := by
  rw [tryReportWriteIssue]
  split
  · rfl
  next r rest queue =>
    rw [if_neg]
    rintro ⟨ring, space, free⟩
    rcases barred with empty | unset | full | writing
    · simp [queue] at empty
    · simp [ring] at unset
    · exact Nat.not_lt.mpr full (of_decide_eq_true space)
    · simp [free] at writing

theorem reportAnswered_done : reportAnswered .done d = mergeSummary (offerHeadLine { d with report := { d.report with
    queue := d.report.queue.tail, writing := false
    producer := (d.report.producer + 1) % 2 ^ (d.report.exponent + 1) } }) := by
  rw [← List.drop_one]
  rfl

theorem mergeSummary_none (barred : 16 ≤ d.report.queue.length ∨ d.report.summary.total = 0) : mergeSummary d = d := by
  rw [mergeSummary, if_neg]
  simp only [occupancy, Config.crowdedQueue, Bool.and_eq_true, bne_iff_ne]
  rintro ⟨room, counted⟩
  exact barred.elim (fun full => Nat.not_lt.mpr full (of_decide_eq_true room)) counted

theorem mergeSummary_joins (room : d.report.queue.length < 16) (counted : d.report.summary.total ≠ 0) :
    mergeSummary d = { d with report := { d.report with
      queue := d.report.queue ++ [mergedReport d.report.summary], summary := ⟨Table.fill 4 false, Table.fill 10 0, 0⟩ } } := by
  have joins : (decide (occupancy d < Config.crowdedQueue) && d.report.summary.total != 0) = true := by
    simp [occupancy, Config.crowdedQueue, room, counted]
  rw [mergeSummary, if_pos joins]
  rfl

end

/-- The mask byte of REPORTS_MERGED, bit by bit (Table 9-2). -/
theorem mergedMask_eq (m : Table Bool 4) : (indices 4).foldl (fun acc s => acc + (if m.get s then 2 ^ s.1 else 0)) 0 =
    (if m.get 0 = true then 2 ^ 0 else 0) + (if m.get 1 = true then 2 ^ 1 else 0) + (if m.get 2 = true then 2 ^ 2 else 0)
      + (if m.get 3 = true then 2 ^ 3 else 0) := by
  have four : indices 4 = [0, 1, 2, 3] := by decide
  simp only [four, List.foldl_cons, List.foldl_nil, Nat.zero_add]
  rfl

theorem tellJob_report {r : PortRequest} (job : r.job = .report) (a : MemAnswer) (d : Device) :
    tellJob r a d = reportAnswered a d := by
  simp only [tellJob, job]

/-- Settles O57: the conditions of the issue, the two answers, and the merged summary. -/
theorem reportWritten : Obligations.ReportWritten := by
  unfold Obligations.ReportWritten
  refine ⟨fun s => ⟨fun r rest queue ring space free => ?_, fun barred => ?_⟩, fun s t r outstanding job write => ?_,
    fun d => ⟨mergeSummary_none, fun room counted => ?_⟩⟩
  · exact (exec_reportWriteIssue s).trans (innerEvent_done (tryReportWriteIssue_issues queue ring space free))
  · exact (exec_reportWriteIssue s).trans (innerEvent_idle (tryReportWriteIssue_none barred))
  · have owns : r.job.releasesAtAnswer = true := by rw [job]; rfl
    exact ⟨(exec_reportWriteAnswer ..).trans ((readingEvent_none ..).trans
        (event_done outstanding write owns ((tellJob_report job _ _).trans reportAnswered_done))),
      (exec_reportWriteAnswer ..).trans ((readingEvent_none ..).trans
        (event_error outstanding owns (tellJob_report job _ _)))⟩
  · refine (mergeSummary_joins room counted).trans ?_
    rw [mergedReport, mergedMask_eq]
    rfl

end Sys2Proof.Proofs

/-! PROOF. A device check handed over (R162, R165, R167, R169). Statement `Obligations.DeviceCheckHandled`. -/
namespace Sys2Proof.Proofs
open Sys2Proof Sys2Proof.Machine

/-! ## Withdrawals read the line locks and the Arbiter alone -/

/-- The part `e` with the line locks and the Arbiter of `d`. -/
def ported (d e : Device) : Device := { e with path := { e.path with locks := d.path.locks }, arbiter := d.arbiter }

theorem foldl_releaseLine_ported (l : List PortRequest) (d e : Device) :
    l.foldl (fun e r => if r.job.ownsLine = true then releaseLine r.line e else e) (ported d e) =
      ported (l.foldl (fun e r => if r.job.ownsLine = true then releaseLine r.line e else e) d) e := by
  induction l generalizing d with
  | nil => rfl
  | cons r l ih =>
    have step : (if r.job.ownsLine = true then releaseLine r.line (ported d e) else ported d e) =
        ported (if r.job.ownsLine = true then releaseLine r.line d else d) e := by
      split <;> rfl
    rw [List.foldl_cons, List.foldl_cons, step, ih]

theorem withdraw_ported (p : Job → Bool) (d e : Device) : withdraw p (ported d e) = ported (withdraw p d) e :=
  foldl_releaseLine_ported (d.arbiter.waiting.filter fun r => p r.job)
    (leaveQueues p (d.withArbiter fun a => { a with waiting := a.waiting.filter fun r => !p r.job })) e

theorem abandon_ported (p : Job → Bool) (d e : Device) : abandon p (ported d e) = ported (abandon p d) e :=
  congrArg (disown p) (withdraw_ported p d e)

theorem withdraw_path (p : Job → Bool) (d : Device) :
    (withdraw p d).path = { d.path with locks := (withdraw p d).path.locks } := congrArg Device.path (withdraw_eq p d)

/-! ## The handling begins (R165) -/

section
variable {d : Device} {loss : Option StreamNo} {cause : DeviceCause} {detail : CheckDetail}

/-- An issued journal read, restore write or scan read loses its owner (R84, R117, log 57). -/
def standsStill (i : Issued) : Issued :=
  match i.request.job with
  | .journalRead _ _ | .restore _ | .scanRead _ _ _ => { i with request := { i.request with job := .discard .c4 } }
  | _ => i

theorem standsStill_eq (i : Issued) :
    (if walkOrScan i.request.job = true then { i with request := i.request.ownerless } else i) = standsStill i := by
  obtain ⟨tag, ⟨job, line, write, mask, data⟩, forwarded, abandoned, at_⟩ := i
  cases job <;> rfl

theorem standsStill_kept (i : Issued) : ((standsStill i).tag, (standsStill i).forwarded, (standsStill i).abandoned,
    (standsStill i).request.line) = (i.tag, i.forwarded, i.abandoned, i.request.line) := by
  rw [standsStill]
  split <;> rfl

/-- The Check Unit as a handling begins (Table 10-3). -/
def handlingBegun (loss : Option StreamNo) (cause : DeviceCause) (detail : CheckDetail) (d : Device) : CheckUnit :=
  { d.check with
    state := .hold, cause := some (cause, detail), second := none
    holdSet := (d.arbiter.issued.filter fun i => !i.forwarded && !i.abandoned).map (·.tag)
    results := Table.fill 4 .notAttempted, stages := Table.fill 4 .none, lossStream := loss }

theorem beginHandling_eq : beginHandling cause detail loss d = { d with
    check := handlingBegun loss cause detail d
    path := { d.path with locks := (withdraw withdrawnAtHold d).path.locks }
    arbiter := { (withdraw withdrawnAtHold d).arbiter with issued := d.arbiter.issued.map standsStill } } := by
  have begun : beginHandling cause detail loss d = disown walkOrScan (ported (withdraw withdrawnAtHold d)
      { d with check := handlingBegun loss cause detail d }) :=
    congrArg (disown walkOrScan) (withdraw_ported withdrawnAtHold d { d with check := handlingBegun loss cause detail d })
  have issued : (withdraw withdrawnAtHold d).arbiter.issued = d.arbiter.issued := by rw [withdraw_arbiter]
  simp only [begun, disown, ported, Device.withArbiter, standsStill_eq, issued]

/-- Requests of C1 and C5 stay in their classes. -/
theorem withdrawnAtHold_waiting : (withdraw withdrawnAtHold d).arbiter.waiting =
    d.arbiter.waiting.filter fun r => r.job.portClass == .c1 || r.job.portClass == .c5 := by
  rw [withdraw_arbiter]
  refine List.filter_congr fun r _ => ?_
  rw [withdrawnAtHold]
  cases r.job.portClass <;> rfl

theorem deviceCheckFor_normal (state : d.check.state = .normal) :
    deviceCheckFor loss cause detail d = beginHandling cause detail loss d := if_pos (normal_iff.mpr state)

theorem deviceCheckFor_handling (state : d.check.state ≠ .normal) :
    deviceCheckFor loss cause detail d = secondCheck cause detail d := if_neg (mt normal_iff.mp state)

end

/-! ## An invalidation abandoned by a second check (R169) -/

section
variable {d : Device} {st : StreamNo}

/-- A line of the invalidation write is issued or acknowledged. -/
def InvalidationBegun (lines : Job → Bool) (d : Device) (st : StreamNo) : Prop :=
  (∃ i ∈ d.arbiter.issued, lines i.request.job = true)
  ∨ ∃ w, (d.streams.get st).anchorOutstanding = some w ∧ 0 < w.acknowledged

theorem invalidationIssued_iff : invalidationIssued d st = true ↔ InvalidationBegun (isAnchorWriteOf st) d st := by
  rw [invalidationIssued, InvalidationBegun, Bool.or_eq_true, List.any_eq_true]
  refine or_congr Iff.rfl ?_
  cases (d.streams.get st).anchorOutstanding <;> simp

/-- The write's lines abandoned, and the stream's anchor writes dropped. -/
def invalidationGone (lines : Job → Bool) (st : StreamNo) (d : Device) : Device := { abandon lines d with
  streams := d.streams.set st { d.streams.get st with anchorWaiting := none, anchorOutstanding := none } }

theorem abandonInvalidation_none (stage : d.check.stages.get st = .none) : abandonInvalidation d st = d := by
  simp only [abandonInvalidation, stage]

theorem abandonInvalidation_awaiting (stage : d.check.stages.get st = .awaiting) :
    abandonInvalidation d st = setInvalidation st .notAttempted .none d := by
  simp only [abandonInvalidation, stage]

theorem abandonInvalidation_offered (stage : d.check.stages.get st = .offered) : abandonInvalidation d st =
    invalidationGone (isAnchorWriteOf st) st
      (setInvalidation st (if invalidationIssued d st = true then .notInvalidated else .notAttempted) .none d) := by
  simp only [abandonInvalidation, stage, Device.withStream, abandon_streams, invalidationGone]

theorem abandonInvalidation_begun {lines : Job → Bool} (same : lines = isAnchorWriteOf st)
    (stage : d.check.stages.get st = .offered) (begun : InvalidationBegun lines d st) :
    abandonInvalidation d st = invalidationGone lines st (setInvalidation st .notInvalidated .none d) := by
  subst same
  rw [abandonInvalidation_offered stage, if_pos (invalidationIssued_iff.mpr begun)]

theorem abandonInvalidation_notBegun {lines : Job → Bool} (same : lines = isAnchorWriteOf st)
    (stage : d.check.stages.get st = .offered) (waits : ¬ InvalidationBegun lines d st) :
    abandonInvalidation d st = invalidationGone lines st (setInvalidation st .notAttempted .none d) := by
  subst same
  rw [abandonInvalidation_offered stage, if_neg (mt invalidationIssued_iff.mp waits)]

end

theorem exec_reading {c : Option CheckDetail → Instr} {effect : Device → Device}
    (row : ∀ failed s, exec (c failed) s = readingEvent failed effect s) (s : State) :
    exec (c none) s = .next { s with dev := finish (effect s.dev) }
    ∧ ∀ f, exec (c (some f)) s = .next { s with dev := finish (deviceCheck .internalState f (effect s.dev)) } :=
  ⟨row none s, fun f => row (some f) s⟩

/-- Settles O58: by the state in which the check is handed over. -/
theorem deviceCheckHandled : Obligations.DeviceCheckHandled := by
  unfold Obligations.DeviceCheckHandled
  refine ⟨fun s h taking => ?_, ⟨fun line => ?_, fun t => ?_, fun h => ?_, fun t a => ⟨?_, ?_, ?_⟩⟩, fun _ _ _ => rfl,
    fun d st => ?_, fun loss cause detail d => ⟨fun state => ?_, fun state => ?_, fun state => ?_, fun state => ?_, fun state => ?_⟩⟩
  · exact (exec_deviceClear ..).trans (event_taken taking rfl)
  · exact exec_reading (c := fun f => .lineGrant line f) (effect := fun d => (tryLineGrant line d).getD d)
      fun failed s => exec_lineGrant line failed s
  · exact exec_reading (c := fun f => .memoryResponseLimit ⟨t, f⟩) (effect := fun d => (tryMemoryResponseLimit t d).getD d)
      fun failed s => exec_memoryResponseLimit ⟨t, failed⟩ s
  · exact exec_reading (c := fun f => .deviceClear ⟨h, f⟩) (effect := fun d => takeRecord h 0x3F runDeviceClear d)
      fun failed s => exec_deviceClear ⟨h, failed⟩ s
  · exact exec_reading (c := fun f => .headLineWriteAnswer ⟨t, f⟩ a) (effect := fun d => memoryAnswer t a d)
      fun failed s => exec_headLineWriteAnswer ⟨t, failed⟩ a s
  · exact exec_reading (c := fun f => .reportWriteAnswer ⟨t, f⟩ a) (effect := fun d => memoryAnswer t a d)
      fun failed s => exec_reportWriteAnswer ⟨t, failed⟩ a s
  · exact exec_reading (c := fun f => .strayResponse ⟨t, f⟩ a) (effect := fun d => memoryAnswer t a d)
      fun failed s => exec_strayResponse ⟨t, failed⟩ a s
  · refine ⟨abandonInvalidation_none, abandonInvalidation_awaiting, fun stage => ⟨fun begun => ?_, fun waits => ?_⟩⟩
    · exact abandonInvalidation_begun (funext fun j => by cases j <;> rfl) stage begun
    · exact abandonInvalidation_notBegun (funext fun j => by cases j <;> rfl) stage waits
  · have begun : deviceCheckFor loss cause detail d = _ := (deviceCheckFor_normal state).trans beginHandling_eq
    rw [begun]
    refine ⟨rfl, withdrawnAtHold_waiting, ?_, rfl, rfl, (withdraw_path ..).symm, rfl⟩
    rw [List.map_map]
    exact List.map_congr_left fun i _ => standsStill_kept i
  · rw [deviceCheckFor_handling (by rw [state]; decide), secondCheck, state]
    rfl
  · rw [deviceCheckFor_handling (by rw [state]; decide), secondCheck, state]
    rfl
  · rw [deviceCheckFor_handling (by rw [state]; decide), secondCheck, state]
    rfl
  · rw [deviceCheckFor_handling (by rw [state]; decide), secondCheck, state]

end Sys2Proof.Proofs

/-! PROOF. What the device clear leaves (R168). Statement `Obligations.DeviceClearLeaves`. -/
namespace Sys2Proof.Proofs
open Sys2Proof Sys2Proof.Machine

/-! ## The locks that RETRY answers leave -/

section
variable {d e : Device}

theorem withLock_locks (same : d.path.locks = e.path.locks) (line : Nat) (f : LineLock → LineLock) :
    (d.withLock line f).path.locks = (e.withLock line f).path.locks := by
  simp only [Device.withLock, lockOf, same]

theorem releaseLine_locks (same : d.path.locks = e.path.locks) (line : Nat) :
    (releaseLine line d).path.locks = (releaseLine line e).path.locks := withLock_locks same line _

theorem leaveLine_locks (same : d.path.locks = e.path.locks) (line : Nat) (g : ReqTag) :
    (leaveLine line g d).path.locks = (leaveLine line g e).path.locks := withLock_locks same line _

theorem respond_locks (t : ReqTag) (a : Response) (d : Device) : (respond t a d).path.locks = d.path.locks := by
  rw [respond]
  split
  · rfl
  · dsimp only
    split
    · split <;> rfl
    · rfl

/-- A write keeps its line while its slot's capture read is outstanding (R25). -/
def lineKept (d : Device) (g : ReqTag) : Bool :=
  match slotOwnedBy d g with
  | some (k, c) => c.phase == .reading && captureIssued d k
  | none => false

/-- What the RETRY of a request does to its line, judged as the part `d` stood (R40). -/
def retryLine (d e : Device) (g : ReqTag) : Device :=
  match d.path.requests.get g with
  | some q =>
    if q.state = .waitOrder then leaveLine q.line g e
    else if q.state = .waitSlot then releaseLine q.line e
    else if q.state = .capturing then if lineKept d g = true then e else releaseLine q.line e
    else e
  | none => e

theorem releaseHeld_locks {g : ReqTag} {line : Nat} (slots : slotOwnedBy d g = slotOwnedBy e g)
    (reads : ∀ k, captureIssued d k = captureIssued e k) : releaseHeld g line d =
      if lineKept e g = true then d else releaseLine line d := by
  rw [releaseHeld, lineKept, slots]
  cases slotOwnedBy e g with
  | none => rfl
  | some p =>
    obtain ⟨k, c⟩ := p
    simp only [reads]
    rfl

/-- One RETRY: of a request not forwarded as `retryLine` has it; of another, none. -/
theorem retryUnforwarded_locks {x : Device} {g : ReqTag} (entry : d.path.requests.get g = x.path.requests.get g)
    (slots : slotOwnedBy d g = slotOwnedBy x g) (reads : ∀ k, captureIssued d k = captureIssued x k)
    (same : d.path.locks = e.path.locks) : (retryUnforwarded d g).path.locks =
      (if unforwarded x g = true then retryLine x e g else e).path.locks := by
  rw [retryUnforwarded, unforwarded, retryLine, entry]
  cases x.path.requests.get g with
  | none => exact same
  | some q =>
    cases state : q.state with
    | waitMode => simp [Request.forwarded, state, respond_locks, same]
    | waitOrder => simpa [Request.forwarded, state, respond_locks] using leaveLine_locks same q.line g
    | waitSlot => simpa [Request.forwarded, state, respond_locks] using releaseLine_locks same q.line
    | capturing =>
      have left : (if lineKept x g = true then d else releaseLine q.line d).path.locks =
          (if lineKept x g = true then e else releaseLine q.line e).path.locks := by
        split
        · exact same
        · exact releaseLine_locks same q.line
      simpa [Request.forwarded, state, respond_locks, releaseHeld_locks slots reads] using left
    | ready => simpa [Request.forwarded, state] using same
    | forwarded => simpa [Request.forwarded, state] using same

end

/-- All RETRY answers: those of requests not forwarded act on their lines, in the order of the tags. -/
theorem foldl_retry_locks {x : Device} (l : List ReqTag) {a : List ReqTag} {d e : Device} (retried : Retried a x d)
    (once : (a ++ l).Nodup) (same : d.path.locks = e.path.locks) : (l.foldl retryUnforwarded d).path.locks =
      ((l.filter (unforwarded x)).foldl (retryLine x) e).path.locks := by
  induction l generalizing a d e with
  | nil => exact same
  | cons g l ih =>
    have new : g ∉ a := fun mem => (List.nodup_append.mp once).2.2 g mem g List.mem_cons_self rfl
    have entry : d.path.requests.get g = x.path.requests.get g := (retried.requests g).trans (if_neg new)
    have slots := congrArg (fun y : Device => slotOwnedBy y g) retried.rest
    have reads (k : SlotNo) := congrArg (fun y : Device => captureIssued y k) retried.rest
    have after := retryUnforwarded_locks (e := e) entry slots reads same
    have next := retryUnforwarded_retried retried new
    have rest_new : (a ++ (if unforwarded x g = true then [g] else []) ++ l).Nodup := by
      split
      · simpa using once
      · rw [List.append_nil]
        exact once.sublist (List.Sublist.append_left (List.sublist_cons_self g l) a)
    rw [List.foldl_cons, ih next rest_new after]
    by_cases open_ : unforwarded x g = true
    · rw [List.filter_cons_of_pos open_, if_pos open_, List.foldl_cons]
    · rw [List.filter_cons_of_neg open_, if_neg open_]

theorem retryLine_arbiter (x e : Device) (g : ReqTag) : (retryLine x e g).arbiter = e.arbiter := by
  rw [retryLine]
  split
  · split
    · rfl
    · split
      · rfl
      · split
        · split <;> rfl
        · rfl
  · rfl

theorem foldl_retryLine_arbiter (x : Device) (l : List ReqTag) (e : Device) : (l.foldl (retryLine x) e).arbiter = e.arbiter := by
  induction l generalizing e with
  | nil => rfl
  | cons g l ih => rw [List.foldl_cons, ih, retryLine_arbiter]

/-! ## Withdrawal of every request of the part's own -/

/-- No request of the part's own waits for the line. -/
def OnlyForwards (l : LineLock) : Prop := ∀ r, Asker.own r ∈ l.queue → r.job.own = false

theorem lockOf_onlyForwards {d : Device} {line : Nat} (all : ∀ l ∈ d.path.locks, OnlyForwards l) :
    OnlyForwards (lockOf d line) := by
  rw [lockOf]
  cases found : d.path.locks.find? (·.line == line) with
  | none => exact fun r mem => absurd mem List.not_mem_nil
  | some l => exact all l (List.mem_of_find?_eq_some found)

theorem releaseLine_onlyForwards {d : Device} (line : Nat) (all : ∀ l ∈ d.path.locks, OnlyForwards l) :
    ∀ l ∈ (releaseLine line d).path.locks, OnlyForwards l := by
  intro l mem
  rcases putLock_mem mem with old | ⟨rfl, -⟩
  · exact all l old
  · exact lockOf_onlyForwards all

theorem foldl_releaseLine_onlyForwards (rs : List PortRequest) {d : Device} (all : ∀ l ∈ d.path.locks, OnlyForwards l) :
    ∀ l ∈ (rs.foldl (fun e r => if r.job.ownsLine = true then releaseLine r.line e else e) d).path.locks, OnlyForwards l := by
  induction rs generalizing d with
  | nil => exact all
  | cons r rs ih =>
    rw [List.foldl_cons]
    refine ih ?_
    split
    · exact releaseLine_onlyForwards _ all
    · exact all

theorem leaveQueues_onlyForwards (d : Device) : ∀ l ∈ (leaveQueues Job.own d).path.locks, OnlyForwards l := by
  intro l mem r waits
  obtain ⟨l', -, rfl⟩ := List.mem_map.mp (List.mem_of_mem_filter mem)
  simpa using (List.mem_filter.mp waits).2

theorem abandonOwn_onlyForwards (d : Device) : ∀ l ∈ (abandon Job.own d).path.locks, OnlyForwards l :=
  foldl_releaseLine_onlyForwards _ (leaveQueues_onlyForwards _)

theorem own_eq_false_iff {j : Job} : j.own = false ↔ ∃ g, j = .forward g := by
  cases j <;> simp [Job.own]

theorem abandon_arbiter (p : Job → Bool) (d : Device) : (abandon p d).arbiter =
    { d.arbiter with
      waiting := d.arbiter.waiting.filter fun r => !p r.job
      issued := d.arbiter.issued.map fun i => { i with request := discarded p i.request } } := by
  rw [abandon, disown_eq, withdraw_arbiter]

/-! ## The clear as a whole -/

section
variable {d : Device}

/-- The part as RETRY answers and withdrawals leave it, before the blocks are cleared. -/
@[irreducible] def emptied (d : Device) : Device := retryAll { d with regions := d.regions.map Region.cleared }

theorem emptied_def (d : Device) : emptied d = retryAll { d with regions := d.regions.map Region.cleared } := by
  delta emptied
  exact Eq.refl _

theorem deviceClear_emptied (d : Device) : deviceClear d = { abandon Job.own (emptied d) with
    arbiter := { (abandon Job.own (emptied d)).arbiter with age := 0 }
    capture := Capture.cold
    streams := Table.fill 4 Stream.cold
    engine := Engine.cold
    command := (abandon Job.own (emptied d)).command.cleared
    report := (abandon Job.own (emptied d)).report.cleared
    check := (abandon Job.own (emptied d)).check.cleared } := by
  obtain ⟨e, rfl, cleared⟩ := deviceClear_eq d
  rw [cleared, ← emptied_def]

/-- The slot queue empty (R47). -/
def unqueued (d : Device) : Device := { d with capture := { d.capture with queue := [] } }

/-- The part at the first RETRY. -/
def emptying (d : Device) : Device := unqueued { d with regions := d.regions.map Region.cleared }

theorem retryAll_eq_foldl (d : Device) : retryAll d = (indices 64).foldl retryUnforwarded (unqueued d) := rfl

theorem unforwarded_emptying : unforwarded (emptying d) = unforwarded d := rfl

theorem retryLine_emptying : retryLine (emptying d) = retryLine d := rfl

theorem emptied_eq : emptied d = (indices 64).foldl retryUnforwarded (emptying d) := by
  rw [emptied_def, retryAll_eq_foldl, emptying]

theorem emptied_retried (d : Device) : Retried ((indices 64).filter (unforwarded d)) (emptying d) (emptied d) := by
  have retried := retryAll_retried (indices 64) (Retried.refl (emptying d)) (List.nodup_finRange 64)
  rwa [List.nil_append, unforwarded_emptying, ← emptied_eq] at retried

theorem unforwarded_iff {g : ReqTag} : unforwarded d g = true ↔
    ∃ q, d.path.requests.get g = some q ∧ q.state ≠ .ready ∧ q.state ≠ .forwarded := by
  rw [unforwarded]
  cases d.path.requests.get g <;> simp [Request.forwarded]

theorem mem_answered {g : ReqTag} : g ∈ (indices 64).filter (unforwarded d) ↔
    ∃ q, d.path.requests.get g = some q ∧ q.state ≠ .ready ∧ q.state ≠ .forwarded := by
  rw [List.mem_filter, unforwarded_iff]
  exact and_iff_right (List.mem_finRange g)

theorem emptied_locks (d : Device) : (emptied d).path.locks =
    (((indices 64).filter (unforwarded d)).foldl (retryLine d) d).path.locks := by
  have locks := foldl_retry_locks (indices 64) (e := d) (Retried.refl (emptying d)) (List.nodup_finRange 64) rfl
  rwa [unforwarded_emptying, retryLine_emptying, ← emptied_eq] at locks

theorem emptied_arbiter (d : Device) : (emptied d).arbiter = d.arbiter := by
  have arbiter := congrArg Device.arbiter (emptied_retried d).rest
  exact arbiter

theorem abandon_path (p : Job → Bool) (d : Device) : (abandon p d).path = { d.path with locks := (abandon p d).path.locks } :=
  congrArg Device.path (abandon_eq p d)

/-- The locks that are left, by the requests answered, what their answers do to their lines, and the requests withdrawn. -/
theorem emptied_abandoned_locks {own : Job → Bool} {answered : List ReqTag} {line : Device → ReqTag → Device}
    (owns : own = Job.own) (open_ : answered = (indices 64).filter (unforwarded d)) (lines : line = retryLine d) :
    (abandon Job.own (emptied d)).path.locks = (abandon own (answered.foldl line d)).path.locks := by
  subst owns open_ lines
  have same : emptied d = ported (((indices 64).filter (unforwarded d)).foldl (retryLine d) d) (emptied d) := by
    rw [ported, ← emptied_locks, foldl_retryLine_arbiter, ← emptied_arbiter]
  rw [same, abandon_ported]
  rfl

/-- The admitted requests among those answered (R4, R40). -/
theorem answered_admitted (r : RegionNo) : ((indices 64).filter (unforwarded d)).filter (admittedTo (emptying d) r) =
    (List.finRange 64).filter fun g => match d.path.requests.get g with
      | none => false
      | some q => q.covering == some r && (q.state == .waitOrder || q.state == .waitSlot || q.state == .capturing) := by
  rw [List.filter_filter]
  refine List.filter_congr fun g _ => ?_
  rw [admittedTo, unforwarded, show (emptying d).path = d.path from rfl]
  cases d.path.requests.get g with
  | none => rfl
  | some q =>
    cases covered : q.covering == some r
    · simp [covered]
    · cases state : q.state <;> simp [covered, state, Request.forwarded]

end

/-- Settles O60: what RETRY answers leave (`Retried`), then what the withdrawal of all own requests leaves. -/
theorem deviceClearLeaves : Obligations.DeviceClearLeaves := by
  unfold Obligations.DeviceClearLeaves
  intro d
  obtain ⟨requests, responses, regions, rest, admissions, fence⟩ := emptied_retried d
  have arbiter := emptied_arbiter d
  rw [emptying, unqueued, Device.mk.injEq] at rest
  obtain ⟨now, winsel, -, -, -, -, -, -, command, report, check, notify, -, sent⟩ := rest
  have path := abandon_path Job.own (emptied d)
  rw [deviceClear_emptied]
  refine ⟨fun r => ?_, fun g q entry => ?_, fun g q entry held => ?_, ⟨_, ?_, ?_, fun g => mem_answered⟩, ?_, ?_, rfl, ?_, ?_,
    ?_, ?_, rfl, rfl, rfl, ?_, ?_, ?_, ?_, ?_, ?_, ?_⟩
  · show (abandon Job.own (emptied d)).regions.get r = _
    rw [abandon_regions, regions r, answered_admitted]
    rw [show (emptying d).regions = d.regions.map Region.cleared from rfl, Table.get_map]
    rfl
  · have entry : (abandon Job.own (emptied d)).path.requests.get g = some q := entry
    rw [path, requests g] at entry
    split at entry
    · cases entry
    next unanswered =>
      refine ⟨entry, ?_⟩
      by_contra waits
      exact unanswered (mem_answered.mpr ⟨q, entry, not_or.mp waits⟩)
  · show (abandon Job.own (emptied d)).path.requests.get g = some q
    rw [path, requests g, if_neg]
    · exact entry
    · intro answered
      obtain ⟨q', entry', ready, forwarded⟩ := mem_answered.mp answered
      obtain rfl : q = q' := Option.some.inj (entry.symm.trans entry')
      exact held.elim ready forwarded
  · show (abandon Job.own (emptied d)).responses = _
    rw [abandon_eq, responses]
    rfl
  · exact (List.pairwise_lt_finRange 64).filter _
  · show (abandon Job.own (emptied d)).path.admissions = _
    rw [path, admissions]
    rfl
  · show (abandon Job.own (emptied d)).path.fence = _
    rw [path, fence]
    rfl
  · show (abandon Job.own (emptied d)).arbiter.waiting = _
    rw [abandon_arbiter, arbiter]
    refine List.filter_congr fun r _ => ?_
    cases r.job <;> rfl
  · show (abandon Job.own (emptied d)).arbiter.issued = _
    rw [abandon_arbiter, arbiter]
    refine List.map_congr_left fun i _ => ?_
    obtain ⟨tag, ⟨job, line, write, mask, data⟩, forwarded, abandoned, at_⟩ := i
    cases job <;> rfl
  · refine emptied_abandoned_locks (funext fun j => by cases j <;> rfl) (List.filter_congr fun g _ => ?_) (funext₂ fun e g => ?_)
    · rw [unforwarded]
      cases d.path.requests.get g with
      | none => rfl
      | some q =>
        show (q.state != .ready && q.state != .forwarded) = !q.forwarded
        rw [Request.forwarded]
        cases q.state <;> rfl
    · rw [retryLine]
      cases d.path.requests.get g with
      | none => rfl
      | some q =>
        refine if_congr Iff.rfl rfl (if_congr Iff.rfl rfl (if_congr Iff.rfl (if_congr ?_ rfl rfl) rfl))
        beta_reduce
        unfold lineKept
        cases slotOwnedBy d g <;> exact Iff.rfl
  · exact fun l mem r waits => own_eq_false_iff.mp (abandonOwn_onlyForwards (emptied d) l mem r waits)
  · rw [abandon_eq, command]
    rfl
  · rw [abandon_report, report]
    rfl
  · rw [abandon_check, check]
    rfl
  · rw [abandon_eq]
    exact now
  · rw [abandon_eq]
    exact winsel
  · rw [abandon_eq]
    exact notify
  · rw [abandon_eq]
    exact sent

end Sys2Proof.Proofs

/-! PROOF. The states of a device check's handling (R165 to R168). Statement `Obligations.HandlingProceeds`. -/
namespace Sys2Proof.Proofs
open Sys2Proof Sys2Proof.Machine

/-! ## Blocked lines (R167) -/

theorem abandonedOn_iff {d : Device} {line : Nat} :
    abandonedOn d line = true ↔ ∃ i ∈ d.arbiter.issued, i.abandoned = true ∧ i.request.line = line := by
  simp [abandonedOn]

theorem not_abandonedOn {d : Device} {line : Nat}
    (free : ∀ i ∈ d.arbiter.issued, i.abandoned = true → i.request.line ≠ line) : ¬ abandonedOn d line = true :=
  fun held => by
    obtain ⟨i, mem, abandoned, on⟩ := abandonedOn_iff.mp held
    exact free i mem abandoned on

theorem coveredOn_iff {d : Device} {line : Nat} : coveredOn d line = true ↔ ∃ g q, d.path.requests.get g = some q ∧ q.line = line
    ∧ q.covering ≠ none ∧ q.state ≠ .waitMode ∧ q.state ≠ .forwarded := by
  have sized := d.path.requests.size
  have judged (q : Request) : (q.line == line && q.covering.isSome && q.state != .waitMode && q.state != .forwarded) = true ↔
      q.line = line ∧ q.covering ≠ none ∧ q.state ≠ .waitMode ∧ q.state ≠ .forwarded := by
    simp [Option.isSome_iff_ne_none, and_assoc]
  rw [coveredOn, List.any_eq_true]
  constructor
  · rintro ⟨entry, mem, on⟩
    obtain ⟨i, inside, rfl⟩ := List.mem_iff_getElem.mp mem
    cases request : d.path.requests.cells[i] with
    | none => simp [request] at on
    | some q =>
      rw [request] at on
      exact ⟨⟨i, sized ▸ inside⟩, q, request, (judged q).mp on⟩
  · rintro ⟨g, q, request, on⟩
    refine ⟨d.path.requests.get g, List.getElem_mem _, ?_⟩
    rw [request]
    exact (judged q).mpr on

theorem isAnchorWriteOf_iff {st : StreamNo} {j : Job} : isAnchorWriteOf st j = true ↔ ∃ i, j = .anchorWrite st i := by
  cases j <;> simp [isAnchorWriteOf]

/-- The asker is a line of an anchor write of the stream. -/
def asksAnchor (st : StreamNo) : Asker → Bool
  | .own r => isAnchorWriteOf st r.job
  | .upstream _ _ => false

theorem unansweredAnchorLines_eq (d : Device) (st : StreamNo) : unansweredAnchorLines d st =
    (d.arbiter.waiting.filter fun r => isAnchorWriteOf st r.job).map (·.line)
    ++ (d.arbiter.issued.filter fun i => isAnchorWriteOf st i.request.job).map (·.request.line)
    ++ (d.path.locks.filter fun l => l.queue.any (asksAnchor st)).map (·.line) := rfl

theorem any_asksAnchor {st : StreamNo} {l : LineLock} : l.queue.any (asksAnchor st) = true ↔
    ∃ r i, .own r ∈ l.queue ∧ r.job = .anchorWrite st i := by
  rw [List.any_eq_true]
  constructor
  · rintro ⟨a, mem, named⟩
    cases a with
    | upstream t w => cases named
    | own r =>
      obtain ⟨i, job⟩ := isAnchorWriteOf_iff.mp named
      exact ⟨r, i, mem, job⟩
  · rintro ⟨r, i, mem, job⟩
    exact ⟨.own r, mem, isAnchorWriteOf_iff.mpr ⟨i, job⟩⟩

theorem mem_lines_filter {α : Type} {l : List α} {p : α → Bool} {lineOf : α → Nat} {line : Nat} :
    line ∈ (l.filter p).map lineOf ↔ ∃ a ∈ l, lineOf a = line ∧ p a = true := by
  rw [List.mem_map]
  exact exists_congr fun a => by rw [List.mem_filter, and_assoc, and_comm (a := p a = true)]

theorem mem_unansweredAnchorLines {d : Device} {st : StreamNo} {line : Nat} : line ∈ unansweredAnchorLines d st ↔
    (∃ r ∈ d.arbiter.waiting, r.line = line ∧ ∃ i, r.job = .anchorWrite st i)
    ∨ (∃ i ∈ d.arbiter.issued, i.request.line = line ∧ ∃ j, i.request.job = .anchorWrite st j)
    ∨ ∃ l ∈ d.path.locks, l.line = line ∧ ∃ r i, .own r ∈ l.queue ∧ r.job = .anchorWrite st i := by
  rw [unansweredAnchorLines_eq, List.mem_append, List.mem_append, mem_lines_filter, mem_lines_filter, mem_lines_filter, or_assoc]
  simp only [isAnchorWriteOf_iff, any_asksAnchor]

/-! ## DEVICE_HOLD and DEVICE_RECORD (R165, R166) -/

section
variable {d : Device}

/-- The streams attached as the record is begun, with their anchor addresses (R166). -/
def snapshotOf (d : Device) : Table (Bool × Nat) 4 := d.streams.map fun x => (x.state != .detached, x.anchorAddress)

/-- The part in DEVICE_RECORD. -/
def recording (d : Device) : Device := { d with check := { d.check with state := .record, snapshot := snapshotOf d } }

theorem tryHoldSetDrained_writes (state : d.check.state = .hold) (drained : d.check.holdSet = [])
    (free : ∀ i ∈ d.arbiter.issued, i.abandoned = true → i.request.line ≠ windowBase d.winsel + 0x100) :
    tryHoldSetDrained d = some (offer ⟨.faultFirst, windowBase d.winsel + 0x100, true, BitVec.allOnes 64,
      faultFirstLine (d.check.clearCount + 1).toNat (snapshotOf d)⟩ (recording d)) := by
  have unblocked : ¬ abandonedOn (recording d) (faultFirstAddress (recording d)) = true := not_abandonedOn free
  have entered : enterRecord d = offer (writeOf .faultFirst (faultFirstAddress (recording d))
      (faultFirstLine (recordNumber (recording d)).toNat (recording d).check.snapshot)) (recording d) := if_neg unblocked
  rw [tryHoldSetDrained, if_pos (by simp [state, drained]), entered, writeOf, fullMask_eq]
  rfl

theorem tryHoldSetDrained_blocked (state : d.check.state = .hold) (drained : d.check.holdSet = [])
    (held : ∃ i ∈ d.arbiter.issued, i.abandoned = true ∧ i.request.line = windowBase d.winsel + 0x100) :
    tryHoldSetDrained d = some (enterInvalidate (recording d)) := by
  have blocked : abandonedOn (recording d) (faultFirstAddress (recording d)) = true := abandonedOn_iff.mpr held
  have entered : enterRecord d = enterInvalidate (recording d) := if_pos blocked
  rw [tryHoldSetDrained, if_pos (by simp [state, drained]), entered]

theorem tryHoldSetDrained_none (waits : d.check.state ≠ .hold ∨ d.check.holdSet ≠ []) : tryHoldSetDrained d = none := by
  rw [tryHoldSetDrained, if_neg]
  rcases waits with other | outstanding
  · simp [other]
  · simp [outstanding]

/-! ## The answers to the record's lines (R166, R168) -/

theorem tellJob_faultFirst {r : PortRequest} (job : r.job = .faultFirst) (state : d.check.state = .record) (a : MemAnswer) :
    tellJob r a d = enterInvalidate d := by
  simp only [tellJob, job, faultFirstAnswered, state, if_true]

theorem tellJob_faultClosing_done {r : PortRequest} (job : r.job = .faultClosing) : tellJob r .done d =
    deviceClear { d with check := { d.check with recordWritten := some (d.check.clearCount + 1) } } := by
  simp only [tellJob, job]
  rfl

theorem tellJob_faultClosing_error {r : PortRequest} (job : r.job = .faultClosing) : tellJob r .error d = deviceClear d := by
  simp only [tellJob, job]
  rfl

/-! ## DEVICE_CLOSE (R168) -/

/-- The part in DEVICE_CLOSE. -/
def closing (d : Device) : Device := { d with check := { d.check with state := .close, stages := Table.fill 4 .none } }

theorem enterClose_writes
    (free : ∀ i ∈ d.arbiter.issued, i.abandoned = true → i.request.line ≠ windowBase d.winsel + 0x140) : enterClose d =
      offer ⟨.faultClosing, windowBase d.winsel + 0x140, true, BitVec.allOnes 64, 0⟩ (closing d) := by
  have unblocked : ¬ abandonedOn (closing d) (faultClosingAddress (closing d)) = true := not_abandonedOn free
  have entered : enterClose d = offer (writeOf .faultClosing (faultClosingAddress (closing d)) 0) (closing d) :=
    if_neg unblocked
  rw [entered, writeOf, fullMask_eq]
  rfl

theorem enterClose_blocked
    (held : ∃ i ∈ d.arbiter.issued, i.abandoned = true ∧ i.request.line = windowBase d.winsel + 0x140) :
    enterClose d = deviceClear (closing d) :=
  if_pos (abandonedOn_iff (d := closing d).mpr held)

/-- The grant of the closing line: its data are the handling's results as they stand. -/
theorem issue_faultClosing {t : MemTag} {x : PortRequest} (job : x.job = .faultClosing) : issue t x d =
    let data : Line := faultClosingLine (d.check.clearCount + 1).toNat d.check.cause d.check.second d.check.results
    { d with
      arbiter := {
        waiting := d.arbiter.waiting.erase x
        issued := d.arbiter.issued ++ [⟨t, { x with data := data }, false, false, d.now⟩]
        age := if (oldestOf d .c5).isSome = true then min 8 (d.arbiter.age + 1) else d.arbiter.age }
      sent := d.sent ++ [⟨t, x.write, x.line, x.mask, data⟩] } := by
  have port : x.job.portClass = .c1 := by rw [job]; rfl
  have told (e : Device) : granted x e = e := by simp only [granted, job]
  have data : issueData d x =
      faultClosingLine (d.check.clearCount + 1).toNat d.check.cause d.check.second d.check.results := by
    simp only [issueData, job, recordNumber]
  rw [issue, told, data, ageAfter, port, if_neg (by decide)]
  rfl

/-! ## DEVICE_INVALIDATE (R167) -/

theorem enterInvalidate_eq : enterInvalidate d =
    let started : Device := [0, 1, 2, 3].foldl startInvalidation { d with check := { d.check with state := .invalidate } }
    if invalidationsDone started = true then enterClose started else started := by
  have four : indices 4 = [0, 1, 2, 3] := by decide
  rw [enterInvalidate, four]
  rfl

theorem not_invalidationsDone (pending : ∃ st, d.check.stages.get st ≠ .none) : ¬ invalidationsDone d = true := by
  obtain ⟨st, awaited⟩ := pending
  exact fun done => awaited (invalidationsDone_iff.mp done st)

section
variable {st : StreamNo}

theorem startInvalidation_absent (absent : (d.check.snapshot.get st).1 = false) : startInvalidation d st =
    { d with streams := d.streams.set st { d.streams.get st with anchorWaiting := none } } :=
  if_pos (by simp [Device.withStream, absent])

/-- The waiting anchor write of the stream dropped. -/
def unwaiting (st : StreamNo) (d : Device) : Device :=
  { d with streams := d.streams.set st { d.streams.get st with anchorWaiting := none } }

/-- What is done for a stream of the snapshot once its waiting write is dropped. -/
def startAttached (st : StreamNo) (d : Device) : Device :=
  if contextFailed d.check st = true then d
  else if d.check.lossStream = some st then setInvalidation st .notInvalidated .none d
  else if attachUnjudged (d.streams.get st) = true then d
  else if (d.streams.get st).anchorOutstanding.isSome = true then
    if (unansweredAnchorLines d st).any (lineBlocked d) = true then d else setInvalidation st .notAttempted .awaiting d
  else offerInvalidation st d

theorem startInvalidation_attached (attached : (d.check.snapshot.get st).1 = true) :
    startInvalidation d st = startAttached st (unwaiting st d) :=
  if_neg (by simp [Device.withStream, attached])

theorem contextFailed_iff {c : CheckUnit} : contextFailed c st = true ↔
    c.cause = some (.internalState, .streamContext st) ∨ c.second = some (.internalState, .streamContext st) := by
  simp [contextFailed]

theorem attachUnjudged_iff {x : Stream} : attachUnjudged x = true ↔
    (x.state = .opening ∨ x.state = .resuming) ∧ ∃ a, x.attach = some a ∧ a.judged = false := by
  rw [attachUnjudged]
  cases x.attach <;> simp

theorem startAttached_failed (failed : contextFailed d.check st = true) : startAttached st d = d := if_pos failed

theorem startAttached_loss (whole : ¬ contextFailed d.check st = true) (loss : d.check.lossStream = some st) :
    startAttached st d = setInvalidation st .notInvalidated .none d := by
  rw [startAttached, if_neg whole, if_pos loss]

theorem startAttached_unjudged (whole : ¬ contextFailed d.check st = true) (loss : d.check.lossStream ≠ some st)
    (unjudged : attachUnjudged (d.streams.get st) = true) : startAttached st d = d := by
  rw [startAttached, if_neg whole, if_neg loss, if_pos unjudged]

theorem startAttached_judged (whole : ¬ contextFailed d.check st = true) (loss : d.check.lossStream ≠ some st)
    (judged : ¬ attachUnjudged (d.streams.get st) = true) : startAttached st d =
      if (d.streams.get st).anchorOutstanding.isSome = true then
        if (unansweredAnchorLines d st).any (lineBlocked d) = true then d else setInvalidation st .notAttempted .awaiting d
      else offerInvalidation st d := by
  rw [startAttached, if_neg whole, if_neg loss, if_neg judged]

theorem invalidationLines_eq (x : Stream) : invalidationLines x =
    (indices 16).map fun i => (if x.newest = .a then x.anchorAddress + 1024 else x.anchorAddress) + 64 * i.1 := by
  rw [invalidationLines, copyAddress_other]

theorem any_invalidationLines {x : Stream} {p : Nat → Bool} : (invalidationLines x).any p = true ↔
    ∃ i : Fin 16, p ((if x.newest = .a then x.anchorAddress + 1024 else x.anchorAddress) + 64 * i.1) = true := by
  rw [invalidationLines_eq, List.any_map, List.any_eq_true]
  exact ⟨fun ⟨i, _, holds⟩ => ⟨i, holds⟩, fun ⟨i, holds⟩ => ⟨i, List.mem_finRange i, holds⟩⟩

theorem offerInvalidation_blocked (blocked : ∃ i : Fin 16, lineBlocked d ((if (d.streams.get st).newest = .a
      then (d.streams.get st).anchorAddress + 1024 else (d.streams.get st).anchorAddress) + 64 * i.1) = true) :
    offerInvalidation st d = setInvalidation st .notAttempted .none d :=
  if_pos (any_invalidationLines.mpr blocked)

theorem offerInvalidation_free (free : ∀ i : Fin 16, lineBlocked d ((if (d.streams.get st).newest = .a
      then (d.streams.get st).anchorAddress + 1024 else (d.streams.get st).anchorAddress) + 64 * i.1) = false) :
    offerInvalidation st d = setInvalidation st .notAttempted .offered (d.withStream st (freezeInvalidation .check)) := by
  refine if_neg fun blocked => ?_
  obtain ⟨i, held⟩ := any_invalidationLines.mp blocked
  exact Bool.false_ne_true ((free i).symm.trans held)

/-- What an invalidation carries (R125, R167). -/
theorem invalidationContents_eq (x : Stream) : invalidationContents x = {
    stamp := x.stamp, cleanDetach := false, invalidated := true, rollbackPending := false, target := 0
    epoch := x.epoch.getD 0 - (if x.pendingMark = none then 0 else 1)
    nextSequence := x.committed.getD 0 + 1, marks := []
    history := x.history.filter fun h => decide (h.first ≤ x.committed.getD 0 + 1)
    policy := x.policy, stallLimit := x.stallLimit } := by
  have pending : (if x.pendingMark.isSome = true then 1 else 0) = if x.pendingMark = none then 0 else 1 := by
    cases x.pendingMark <;> rfl
  rw [invalidationContents, anchorContents, pending]
  rfl

theorem freezeInvalidation_eq (o : Occasion) (x : Stream) : freezeInvalidation o x =
    { x with anchorWaiting := some ⟨[o], some (x.anchorAddress, {
      stamp := x.stamp, cleanDetach := false, invalidated := true, rollbackPending := false, target := 0
      epoch := x.epoch.getD 0 - (if x.pendingMark = none then 0 else 1)
      nextSequence := x.committed.getD 0 + 1, marks := []
      history := x.history.filter fun h => decide (h.first ≤ x.committed.getD 0 + 1)
      policy := x.policy, stallLimit := x.stallLimit })⟩ } := by
  rw [freezeInvalidation, invalidationContents_eq]

theorem unwaiting_stream : (unwaiting st d).streams.get st = { d.streams.get st with anchorWaiting := none } := Table.get_set ..

end

end

/-- Settles O59: the states of the handling in their order, then what DEVICE_INVALIDATE does for one stream. -/
theorem handlingProceeds : Obligations.HandlingProceeds := by
  unfold Obligations.HandlingProceeds
  refine ⟨⟨fun s => ⟨fun state drained => ⟨fun free => ?_, fun held => ?_⟩, fun waits => ?_⟩,
      fun s t r outstanding write => ⟨fun job state a mem => ?_, fun job => ⟨?_, ?_⟩⟩,
      fun d => ⟨enterClose_writes, enterClose_blocked⟩, fun s tag x choice job free => ?_⟩,
    fun d => ⟨fun none_pending => ?_, fun pending => ?_⟩, fun d st => startInvalidation_absent,
    fun d st attached => ?_, fun d line => ?_, fun d st line => mem_unansweredAnchorLines⟩
  · exact (exec_holdSetDrained s).trans (innerEvent_done (tryHoldSetDrained_writes state drained free))
  · exact (exec_holdSetDrained s).trans (innerEvent_done (tryHoldSetDrained_blocked state drained held))
  · exact (exec_holdSetDrained s).trans (innerEvent_idle (tryHoldSetDrained_none waits))
  · have owns : r.job.releasesAtAnswer = true := by rw [job]; rfl
    have told := tellJob_faultFirst (d := returned t r s.dev) job state
    rcases List.mem_pair.mp mem with rfl | rfl
    · exact (exec_faultRecordFirstLineAnswer ..).trans (event_done outstanding write owns (told .done))
    · exact (exec_faultRecordFirstLineAnswer ..).trans (event_error outstanding owns (told .error))
  · have owns : r.job.releasesAtAnswer = true := by rw [job]; rfl
    exact (exec_faultRecordClosingLineAnswer ..).trans (event_done outstanding write owns (tellJob_faultClosing_done job))
  · have owns : r.job.releasesAtAnswer = true := by rw [job]; rfl
    exact (exec_faultRecordClosingLineAnswer ..).trans (event_error outstanding owns (tellJob_faultClosing_error job))
  · rw [exec_arbiterGrant, innerEvent_done (tryArbiterGrant_done choice free), issue_faultClosing job]
  · exact enterInvalidate_eq.trans (if_pos (invalidationsDone_iff.mpr none_pending))
  · exact enterInvalidate_eq.trans (if_neg (not_invalidationsDone pending))
  · have stream := unwaiting_stream (st := st) (d := d)
    refine ⟨fun failed => ?_, fun whole loss => ?_, fun whole loss unjudged => ?_, fun whole loss judged => ?_,
      fun blocked => ?_, fun free => ?_⟩
    · exact (startInvalidation_attached attached).trans (startAttached_failed (contextFailed_iff.mpr failed))
    · exact (startInvalidation_attached attached).trans (startAttached_loss (mt contextFailed_iff.mp whole) loss)
    · refine (startInvalidation_attached attached).trans (startAttached_unjudged (mt contextFailed_iff.mp whole) loss ?_)
      rw [stream]
      exact attachUnjudged_iff.mpr unjudged
    · have step := (startInvalidation_attached attached).trans (startAttached_judged (d := unwaiting st d)
        (mt contextFailed_iff.mp whole) loss (by rw [stream]; exact mt attachUnjudged_iff.mp judged))
      rw [stream] at step
      refine ⟨fun outstanding => ⟨fun blocked => ?_, fun free => ?_⟩, fun outstanding => ?_⟩
      · exact step.trans ((if_pos (Option.isSome_iff_ne_none.mpr outstanding)).trans (if_pos (List.any_eq_true.mpr blocked)))
      · refine step.trans ((if_pos (Option.isSome_iff_ne_none.mpr outstanding)).trans (if_neg (List.any_eq_true.not.mpr ?_)))
        rintro ⟨l, mem, held⟩
        exact Bool.false_ne_true ((free l mem).symm.trans held)
      · exact step.trans (if_neg fun some_write => Option.isSome_iff_ne_none.mp some_write outstanding)
    · refine offerInvalidation_blocked (d := unwaiting st d) ?_
      rw [stream]
      exact blocked
    · refine (offerInvalidation_free (d := unwaiting st d) ?_).trans ?_
      · rw [stream]
        exact free
      · rw [Device.withStream, stream, freezeInvalidation_eq]
        simp only [unwaiting, Table.set_set]
        rfl
  · rw [lineBlocked, Bool.or_eq_true, abandonedOn_iff, coveredOn_iff]

end Sys2Proof.Proofs

/-! PROOF. The lines that are written read back (R122, R171 to R173, Tables 11-3 to 11-7). Statement
`Obligations.WrittenFormatsReadBack`. -/
namespace Sys2Proof.Proofs
open Sys2Proof Sys2Proof.Machine

/-! ## The check code as the CRC of R173 -/

/-- A message bit enters the register (R173). -/
def crcEnter (r : BitVec 32) (bit : Bool) : BitVec 32 := (r <<< 1) ^^^ (if r.msb = bit then 0#32 else 0x1EDC6F41#32)

theorem crcBit_eq (r : BitVec 32) (bit : Bool) : crcBit r.toNat bit = (crcEnter r bit).toNat := by
  have top : r.toNat.testBit 31 = r.msb := by rw [BitVec.msb_eq_getLsbD_last, BitVec.testBit_toNat]
  rw [crcBit, crcEnter, top]
  by_cases same : r.msb = bit
  · rw [if_pos (beq_iff_eq.mpr same), if_pos same, BitVec.xor_zero, BitVec.toNat_shiftLeft]
  · rw [if_neg (mt beq_iff_eq.mp same), if_neg same, BitVec.toNat_xor, BitVec.toNat_shiftLeft]
    rfl

theorem crcRun_eq (k m : Nat) (r : BitVec 32) :
    crcRun k m r.toNat = ((List.range k).foldl (fun r i => crcEnter r (m.testBit i)) r).toNat := by
  induction k generalizing m r with
  | zero => rfl
  | succ k ih =>
    have low : (m % 2 == 1) = m.testBit 0 := by
      rw [Nat.testBit_zero]
      rfl
    rw [crcRun, crcBit_eq, ih, low, List.range_succ_eq_map, List.foldl_cons, List.foldl_map]
    simp only [Nat.testBit_succ]

theorem reflect_lt (k r : Nat) : reflect k r < 2 ^ k := by
  induction k generalizing r with
  | zero => exact Nat.one_pos
  | succ k ih =>
    have rest := ih (r / 2)
    have bit : r % 2 ≤ 1 := Nat.le_of_lt_succ (Nat.mod_lt r (by decide))
    have top : r % 2 * 2 ^ k ≤ 2 ^ k := (Nat.mul_le_mul_right _ bit).trans_eq (Nat.one_mul _)
    rw [reflect, Nat.pow_succ]
    omega

theorem testBit_reflect (k r i : Nat) : (reflect k r).testBit i = (decide (i < k) && r.testBit (k - 1 - i)) := by
  induction k generalizing r i with
  | zero => simp [reflect]
  | succ k ih =>
    rw [reflect, Nat.mul_comm, Nat.testBit_two_pow_mul_add _ (reflect_lt k _)]
    rcases Nat.lt_trichotomy i k with below | rfl | above
    · have place : k + 1 - 1 - i = k - 1 - i + 1 := by omega
      rw [if_pos below, ih, place, Nat.testBit_succ]
      simp [below, Nat.lt_succ_of_lt below]
    · simp [Nat.testBit_zero]
    · have spill : (r % 2).testBit (i - k) = false :=
        Nat.testBit_lt_two_pow (Nat.lt_of_lt_of_le (Nat.mod_lt r (by decide)) (Nat.le_self_pow (by omega) 2))
      rw [if_neg (Nat.not_lt.mpr above.le), spill]
      simp [Nat.not_lt.mpr (Nat.succ_le_of_lt above)]

theorem reflect_eq (r : BitVec 32) : reflect 32 r.toNat = r.reverse.toNat := by
  refine Nat.eq_of_testBit_eq fun i => ?_
  rw [testBit_reflect, BitVec.testBit_toNat, BitVec.testBit_toNat, BitVec.getLsbD_reverse, BitVec.getMsbD_eq_getLsbD]

theorem crc_eq {n : Nat} (m : BitVec n) : crc m =
    (~~~ ((List.range n).foldl (fun r i => crcEnter r (m.getLsbD i)) (BitVec.allOnes 32)).reverse).toNat := by
  have run := crcRun_eq n m.toNat (BitVec.allOnes 32)
  rw [BitVec.toNat_allOnes] at run
  rw [crc, run, reflect_eq, BitVec.toNat_not]
  rfl

theorem eq_zeroed {n : Nat} {w bare : BitVec n} {o s : Nat}
    (clear : ∀ i < n, bare.getLsbD i = (w.getLsbD i && !decide (8 * o ≤ i ∧ i < 8 * o + 8 * s))) : zeroed w o s = bare := by
  refine BitVec.eq_of_getLsbD_eq fun i inside => ?_
  rw [getLsbD_zeroed, clear i inside, Bool.decide_and]

/-! ## Fields of a line -/

section
variable {n : Nat} {fields : List (Nat × Nat × Nat)} {o s : Nat}

/-- The low bytes of a field. -/
theorem bytesAt_low (w : BitVec n) {t : Nat} (part : s ≤ t) : bytesAt w o s = bytesAt w o t % 2 ^ (8 * s) := by
  rw [bytesAt, bytesAt, Nat.mod_mod_of_dvd _ (Nat.pow_dvd_pow 2 (Nat.mul_le_mul_left 8 part))]

/-- A value that fits the low bytes of its field reads back from them. -/
theorem bytesAt_low_eq {w : BitVec n} {t v : Nat} (part : s ≤ t) (whole : bytesAt w o t = v) (small : v < 2 ^ (8 * s)) :
    bytesAt w o s = v := by
  rw [bytesAt_low w part, whole, Nat.mod_eq_of_lt small]

end

theorem kindCode_lt (k : ReportKind) : k.code < 2 ^ 8 := by cases k <;> decide
theorem statusCode_lt (s : Status) : s.code < 2 ^ 8 := by cases s <;> decide
theorem flag_lt (b : Bool) : (if b = true then 1 else 0) < 2 ^ 8 := by cases b <;> decide

/-! ## Reports, the head line and the fault record (Tables 11-3 and 11-7) -/

/-- The fields of a report's line. -/
def reportFields (r : Report) : List (Nat × Nat × Nat) :=
  [(0x00, 1, r.kind.code), (0x01, 1, if r.lap then 1 else 0), (0x02, 2, r.tag.toNat), (0x04, 1, r.status.code),
   (0x05, 1, r.stream), (0x06, 1, r.region), (0x08, 4, r.number.toNat), (0x0C, 4, r.epoch), (0x10, 4, r.label),
   (0x14, 4, r.sequence), (0x18, 8, r.address), (0x20, 8, r.first), (0x28, 8, r.second)]

theorem encode_eq (r : Report) : r.encode = layout 512 (reportFields r) := rfl

theorem reportFields_apart (r : Report) : (reportFields r).Pairwise Apart := by simp [reportFields, Apart]

theorem encode_field {r : Report} {o s v : Nat} (field : (o, s, v) ∈ reportFields r) (fits : 8 * (o + s) ≤ 512)
    (small : v < 2 ^ (8 * s)) : bytesAt r.encode o s = v := bytesAt_layout (reportFields_apart r) field fits small

theorem headLine_field {head producer o s v : Nat} (field : (o, s, v) ∈ [(0x00, 8, head), (0x08, 8, producer)])
    (fits : 8 * (o + s) ≤ 512) (small : v < 2 ^ (8 * s)) : bytesAt (headLine head producer) o s = v :=
  bytesAt_layout (by simp [Apart]) field fits small

theorem indices_four : indices 4 = [0, 1, 2, 3] := by decide

theorem mem_four (s : Fin 4) : s ∈ [(0 : Fin 4), 1, 2, 3] := by
  revert s
  decide

/-- The fields of the fault record's first line. -/
def faultFirstFields (number : Nat) (snapshot : Table (Bool × Nat) 4) : List (Nat × Nat × Nat) :=
  (0x00, 4, number) :: [(0 : Fin 4), 1, 2, 3].flatMap fun s =>
    [(0x08 + s.1, 1, if (snapshot.get s).1 then 1 else 0), (0x10 + 8 * s.1, 8, (snapshot.get s).2)]

theorem faultFirstLine_eq (number : Nat) (snapshot : Table (Bool × Nat) 4) :
    faultFirstLine number snapshot = layout 512 (faultFirstFields number snapshot) := by
  rw [faultFirstLine, indices_four]
  rfl

theorem faultFirstFields_apart (number : Nat) (snapshot : Table (Bool × Nat) 4) :
    (faultFirstFields number snapshot).Pairwise Apart := by simp [faultFirstFields, Apart]

theorem faultFirst_field {number : Nat} {snapshot : Table (Bool × Nat) 4} {o s v : Nat}
    (field : (o, s, v) ∈ faultFirstFields number snapshot) (fits : 8 * (o + s) ≤ 512) (small : v < 2 ^ (8 * s)) :
    bytesAt (faultFirstLine number snapshot) o s = v := by
  rw [faultFirstLine_eq]
  exact bytesAt_layout (faultFirstFields_apart number snapshot) field fits small

/-- The fields of the fault record's closing line. -/
def faultClosingFields (number : Nat) (cause second : Option (DeviceCause × CheckDetail)) (results : Table CheckResult 4) :
    List (Nat × Nat × Nat) :=
  [(0x00, 4, 0x3CA55AC3), (0x04, 4, number), (0x08, 1, (checkCodes cause).1), (0x09, 1, (checkCodes cause).2),
    (0x0A, 1, (checkCodes second).1), (0x0B, 1, (checkCodes second).2)]
    ++ [(0 : Fin 4), 1, 2, 3].map fun s => (0x0C + s.1, 1, (results.get s).code)

theorem deviceCauseCode_lt (c : DeviceCause) : c.code < 2 ^ 8 := by cases c <;> decide

theorem detailCode_lt (c : CheckDetail) : detailCode c < 2 ^ 8 := by
  cases c with
  | streamContext s => exact Nat.lt_of_lt_of_le (Nat.add_lt_add_left s.2 8) (by decide)
  | _ => decide

theorem checkCodes_lt (c : Option (DeviceCause × CheckDetail)) :
    (checkCodes c).1 < 2 ^ (8 * 1) ∧ (checkCodes c).2 < 2 ^ (8 * 1) := by
  match c with
  | none => decide
  | some (cause, detail) => exact ⟨deviceCauseCode_lt cause, detailCode_lt detail⟩

theorem resultCode_lt (r : CheckResult) : r.code < 2 ^ (8 * 1) := by cases r <;> decide

section
variable {number : Nat} {cause second : Option (DeviceCause × CheckDetail)} {results : Table CheckResult 4}

theorem faultClosingLine_eq : faultClosingLine number cause second results =
    layout 512 (faultClosingFields number cause second results) := by
  rw [faultClosingLine, indices_four]
  rfl

theorem faultClosingFields_apart : (faultClosingFields number cause second results).Pairwise Apart := by
  simp [faultClosingFields, Apart]

theorem faultClosing_field {o s v : Nat} (field : (o, s, v) ∈ faultClosingFields number cause second results)
    (fits : 8 * (o + s) ≤ 512) (small : v < 2 ^ (8 * s)) : bytesAt (faultClosingLine number cause second results) o s = v := by
  rw [faultClosingLine_eq]
  exact bytesAt_layout faultClosingFields_apart field fits small

end

/-! ## The header of a record (Table 11-4) -/

section
variable {kind stream region stamp sequence epoch line label : Nat} {image : Line}

/-- The fields of a record's header but its check code. -/
def headerFields (kind stream region stamp sequence epoch line label : Nat) : List (Nat × Nat × Nat) :=
  [(0x00, 1, kind), (0x01, 1, stream), (0x02, 1, region), (0x04, 4, stamp), (0x08, 4, sequence),
    (0x0C, 4, epoch), (0x10, 8, line), (0x18, 4, label)]

theorem headerFields_apart : (headerFields kind stream region stamp sequence epoch line label).Pairwise Apart := by
  simp [headerFields, Apart]

/-- A header's line without its check code. -/
def bareHeaderOf (kind stream region stamp sequence epoch line label : Nat) : Line :=
  layout 512 (headerFields kind stream region stamp sequence epoch line label)

theorem recordHeader_eq : recordHeader kind stream region stamp sequence epoch line label image =
    bareHeaderOf kind stream region stamp sequence epoch line label |||
      layout 512 [(0x1C, 4, recordCheckCode (bareHeaderOf kind stream region stamp sequence epoch line label) image)] := rfl

theorem recordHeader_field {o s v : Nat} (field : (o, s, v) ∈ headerFields kind stream region stamp sequence epoch line label)
    (before : o + s ≤ 0x1C) (small : v < 2 ^ (8 * s)) :
    bytesAt (recordHeader kind stream region stamp sequence epoch line label image) o s = v := by
  rw [recordHeader_eq, bytesAt_or_layout _ _ _ _ _ _ (.inl before)]
  exact bytesAt_layout headerFields_apart field (by omega) small

theorem recordHeader_checks : recordChecks (recordHeader kind stream region stamp sequence epoch line label image) image = true :=
  recordChecks_or _ _ (bytesAt_layout_gap (by simp [Apart]))

end

/-! ## Anchor copies (Table 11-6) -/

/-- The flag byte of a copy. -/
def flagByte (c : AnchorContents) : Nat :=
  (if c.cleanDetach then 1 else 0) + (if c.invalidated then 2 else 0) + (if c.rollbackPending then 4 else 0)

/-- The fields of a copy before its marks, but its check code. -/
def copyHead (c : AnchorContents) (generation : BitVec 32) : List (Nat × Nat × Nat) :=
  [(0x000, 4, anchorMagic), (0x008, 4, c.stamp.toNat), (0x00C, 4, generation.toNat), (0x010, 1, flagByte c),
    (0x011, 1, c.policy.code), (0x012, 1, stallCode c.stallLimit), (0x014, 1, c.marks.length),
    (0x015, 1, c.history.length), (0x018, 4, c.target), (0x01C, 4, c.epoch), (0x020, 4, c.nextSequence)]

/-- The fields of a mark at its place. -/
def markFields (m : MarkEntry × Nat) : List (Nat × Nat × Nat) :=
  [(0x040 + 16 * m.2, 4, m.1.epoch), (0x044 + 16 * m.2, 4, m.1.label.toNat), (0x048 + 16 * m.2, 4, m.1.sequence)]

/-- The fields of a history entry at its place. -/
def historyFields (h : Segment × Nat) : List (Nat × Nat × Nat) :=
  [(0x0C0 + 32 * h.2, 8, h.1.descriptor), (0x0C8 + 32 * h.2, 8, h.1.base), (0x0D0 + 32 * h.2, 4, h.1.count),
   (0x0D4 + 32 * h.2, 4, h.1.first), (0x0D8 + 32 * h.2, 1, if h.1.notify then 1 else 0)]

/-- All fields of a copy but its check code. -/
def copyFields (c : AnchorContents) (generation : BitVec 32) : List (Nat × Nat × Nat) :=
  copyHead c generation ++ c.marks.zipIdx.flatMap markFields ++ c.history.zipIdx.flatMap historyFields

/-- The field's bytes lie in a range. -/
def Within (low high : Nat) (f : Nat × Nat × Nat) : Prop := low ≤ f.1 ∧ f.1 + f.2.1 ≤ high

theorem Within.apart {f g : Nat × Nat × Nat} {a b x y : Nat} (first : Within a b f) (second : Within x y g) (order : b ≤ x) :
    Apart f g := .inl (first.2.trans (order.trans second.1))

/-- Pieces of consecutive places, each in its own part of the bytes, share none. -/
theorem flatMap_zipIdx_apart {α : Type} (l : List α) (piece : α × Nat → List (Nat × Nat × Nat)) (start size : Nat)
    (inside : ∀ p, ∀ f ∈ piece p, Within (start + size * p.2) (start + size * (p.2 + 1)) f)
    (each : ∀ p, (piece p).Pairwise Apart) : (l.zipIdx.flatMap piece).Pairwise Apart := by
  have places : (l.zipIdx.map Prod.snd).Pairwise (· < ·) := by
    rw [List.zipIdx_map_snd]
    exact List.pairwise_lt_range'
  refine List.pairwise_flatMap.mpr ⟨fun p _ => each p, (List.pairwise_map.mp places).imp fun {p q} before f memF g memG => ?_⟩
  exact (inside p f memF).apart (inside q g memG) (Nat.add_le_add_left (Nat.mul_le_mul_left size before) start)

theorem mem_flatMap_zipIdx_within {α : Type} {l : List α} {piece : α × Nat → List (Nat × Nat × Nat)} {start size most : Nat}
    (inside : ∀ p, ∀ f ∈ piece p, Within (start + size * p.2) (start + size * (p.2 + 1)) f) (bound : l.length ≤ most)
    {f : Nat × Nat × Nat} (mem : f ∈ l.zipIdx.flatMap piece) : Within start (start + size * most) f := by
  obtain ⟨p, memP, memF⟩ := List.mem_flatMap.mp mem
  have place : p.2 < l.length := List.snd_lt_of_mem_zipIdx memP
  obtain ⟨low, high⟩ := inside p f memF
  have last : size * (p.2 + 1) ≤ size * most := Nat.mul_le_mul_left size (place.trans_le bound)
  exact ⟨(Nat.le_add_right _ _).trans low, high.trans (Nat.add_le_add_left last start)⟩

theorem markFields_within (m : MarkEntry × Nat) : ∀ f ∈ markFields m, Within (0x040 + 16 * m.2) (0x040 + 16 * (m.2 + 1)) f := by
  simp only [markFields, List.forall_mem_cons, Within]
  refine ⟨?_, ?_, ?_, fun f mem => absurd mem List.not_mem_nil⟩ <;> omega

theorem historyFields_within (h : Segment × Nat) :
    ∀ f ∈ historyFields h, Within (0x0C0 + 32 * h.2) (0x0C0 + 32 * (h.2 + 1)) f := by
  simp only [historyFields, List.forall_mem_cons, Within]
  refine ⟨?_, ?_, ?_, ?_, ?_, fun f mem => absurd mem List.not_mem_nil⟩ <;> omega

theorem markFields_apart (m : MarkEntry × Nat) : (markFields m).Pairwise Apart := by
  simp only [markFields, List.pairwise_cons, List.forall_mem_cons, Apart]
  simp
  omega

theorem historyFields_apart (h : Segment × Nat) : (historyFields h).Pairwise Apart := by
  simp only [historyFields, List.pairwise_cons, List.forall_mem_cons, Apart]
  simp
  omega

section
variable {c : AnchorContents} {generation : BitVec 32}

theorem copyHead_apart : (copyHead c generation).Pairwise Apart := by simp [copyHead, Apart]

theorem copyHead_within : ∀ f ∈ copyHead c generation, Within 0 0x040 f := by simp [copyHead, Within]

theorem copyHead_uncoded : ∀ f ∈ copyHead c generation, Apart (0x004, 4, 0) f := by simp [copyHead, Apart]

theorem mem_marks_within (bound : c.marks.length ≤ 8) {f : Nat × Nat × Nat} (mem : f ∈ c.marks.zipIdx.flatMap markFields) :
    Within 0x040 0x0C0 f := mem_flatMap_zipIdx_within markFields_within bound mem

theorem mem_history_within (bound : c.history.length ≤ 16) {f : Nat × Nat × Nat}
    (mem : f ∈ c.history.zipIdx.flatMap historyFields) : Within 0x0C0 0x2C0 f :=
  mem_flatMap_zipIdx_within historyFields_within bound mem

theorem copyFields_apart (marks : c.marks.length ≤ 8) (history : c.history.length ≤ 16) :
    (copyFields c generation).Pairwise Apart := by
  refine List.pairwise_append.mpr ⟨List.pairwise_append.mpr ⟨copyHead_apart,
    flatMap_zipIdx_apart _ _ 0x040 16 markFields_within markFields_apart, fun f memF g memG => ?_⟩,
    flatMap_zipIdx_apart _ _ 0x0C0 32 historyFields_within historyFields_apart, fun f memF g memG => ?_⟩
  · exact (copyHead_within f memF).apart (mem_marks_within marks memG) (Nat.le_refl _)
  · rcases List.mem_append.mp memF with head | mark
    · exact (copyHead_within f head).apart (mem_history_within history memG) (by decide)
    · exact (mem_marks_within marks mark).apart (mem_history_within history memG) (Nat.le_refl _)

theorem copyFields_uncoded (marks : c.marks.length ≤ 8) (history : c.history.length ≤ 16) :
    ∀ f ∈ copyFields c generation, Apart (0x004, 4, 0) f := by
  have code : Within 0 0x040 ((0x004, 4, 0) : Nat × Nat × Nat) := ⟨Nat.zero_le _, by decide⟩
  intro f mem
  rcases List.mem_append.mp mem with front | entry
  · rcases List.mem_append.mp front with head | mark
    · exact copyHead_uncoded f head
    · exact code.apart (mem_marks_within marks mark) (Nat.le_refl _)
  · exact code.apart (mem_history_within history entry) (by decide)

/-- A copy without its check code. -/
def bareCopyOf (c : AnchorContents) (generation : BitVec 32) : BitVec 8192 := layout 8192 (copyFields c generation)

theorem anchorImage_eq : anchorImage c generation =
    bareCopyOf c generation ||| layout 8192 [(0x004, 4, anchorCheckCode (bareCopyOf c generation))] := rfl

theorem anchorImage_valid (marks : c.marks.length ≤ 8) (history : c.history.length ≤ 16) :
    copyValid (anchorImage c generation) = true := by
  have first : (0x000, 4, anchorMagic) ∈ copyFields c generation :=
    List.mem_append_left _ (List.mem_append_left _ List.mem_cons_self)
  rw [anchorImage_eq]
  exact copyValid_or _ (bytesAt_layout (copyFields_apart marks history) first (by decide) (by decide))
    (bytesAt_layout_gap (copyFields_uncoded marks history))

/-- A field of a copy behind its check code reads back. -/
theorem anchorImage_field {o s v : Nat} (marks : c.marks.length ≤ 8) (history : c.history.length ≤ 16)
    (field : (o, s, v) ∈ copyFields c generation) (behind : 8 ≤ o) (fits : o + s ≤ 0x400) (small : v < 2 ^ (8 * s)) :
    bytesAt (anchorImage c generation) o s = v := by
  rw [anchorImage_eq, bytesAt_or_layout _ o s 0x004 4 _ (.inr behind)]
  exact bytesAt_layout (copyFields_apart marks history) field (by omega) small

theorem anchorImage_head {o s v : Nat} (marks : c.marks.length ≤ 8) (history : c.history.length ≤ 16)
    (field : (o, s, v) ∈ copyHead c generation) (behind : 8 ≤ o) (small : v < 2 ^ (8 * s)) :
    bytesAt (anchorImage c generation) o s = v :=
  anchorImage_field marks history (List.mem_append_left _ (List.mem_append_left _ field)) behind
    ((copyHead_within _ field).2.trans (by decide)) small

theorem anchorImage_mark {o s v i : Nat} {m : MarkEntry} (marks : c.marks.length ≤ 8) (history : c.history.length ≤ 16)
    (held : c.marks[i]? = some m) (field : (o, s, v) ∈ markFields (m, i)) (small : v < 2 ^ (8 * s)) :
    bytesAt (anchorImage c generation) o s = v := by
  have mem : (o, s, v) ∈ c.marks.zipIdx.flatMap markFields :=
    List.mem_flatMap.mpr ⟨(m, i), List.mk_mem_zipIdx_iff_getElem?.mpr held, field⟩
  obtain ⟨low, high⟩ := mem_marks_within marks mem
  exact anchorImage_field marks history (List.mem_append_left _ (List.mem_append_right _ mem))
    ((by decide : 8 ≤ 0x040).trans low) (high.trans (by decide)) small

theorem anchorImage_entry {o s v i : Nat} {h : Segment} (marks : c.marks.length ≤ 8) (history : c.history.length ≤ 16)
    (held : c.history[i]? = some h) (field : (o, s, v) ∈ historyFields (h, i)) (small : v < 2 ^ (8 * s)) :
    bytesAt (anchorImage c generation) o s = v := by
  have mem : (o, s, v) ∈ c.history.zipIdx.flatMap historyFields :=
    List.mem_flatMap.mpr ⟨(h, i), List.mk_mem_zipIdx_iff_getElem?.mpr held, field⟩
  obtain ⟨low, high⟩ := mem_history_within history mem
  exact anchorImage_field marks history (List.mem_append_right _ mem)
    ((by decide : 8 ≤ 0x0C0).trans low) (high.trans (by decide)) small

/-! ## A copy's contents read back -/

theorem flagByte_reads (c : AnchorContents) : (flagByte c % 2 == 1) = c.cleanDetach ∧ (flagByte c / 2 % 2 == 1) = c.invalidated
    ∧ (flagByte c / 4 % 2 == 1) = c.rollbackPending ∧ flagByte c < 2 ^ (8 * 1) := by
  rw [flagByte]
  cases c.cleanDetach <;> cases c.invalidated <;> cases c.rollbackPending <;> decide

theorem policyOfCode_code (p : Policy) : Policy.ofCode p.code = p ∧ p.code < 2 ^ (8 * 1) := by cases p <;> decide

theorem stallOfCode_code {limit : Option Nat} (bound : ∀ k, limit = some k → k ≤ 10) :
    stallOfCode (stallCode limit) = limit ∧ stallCode limit < 2 ^ (8 * 1) := by
  cases limit with
  | none => decide
  | some k =>
    have small := bound k rfl
    exact ⟨if_pos small, Nat.lt_of_le_of_lt small (by decide)⟩

theorem readMark {i : Nat} {m : MarkEntry} (marks : c.marks.length ≤ 8) (history : c.history.length ≤ 16)
    (held : c.marks[i]? = some m) (epoch : m.epoch < 2 ^ 32) (sequence : m.sequence < 2 ^ 32) :
    (⟨bytesAt (anchorImage c generation) (0x040 + 16 * i) 4,
      BitVec.ofNat 32 (bytesAt (anchorImage c generation) (0x044 + 16 * i) 4),
      bytesAt (anchorImage c generation) (0x048 + 16 * i) 4⟩ : MarkEntry) = m := by
  rw [anchorImage_mark marks history held (v := m.epoch) (by simp [markFields]) epoch,
    anchorImage_mark marks history held (v := m.label.toNat) (by simp [markFields]) m.label.isLt,
    anchorImage_mark marks history held (v := m.sequence) (by simp [markFields]) sequence, BitVec.ofNat_toNat,
    BitVec.setWidth_eq]

theorem readEntry {i : Nat} {h : Segment} (marks : c.marks.length ≤ 8) (history : c.history.length ≤ 16)
    (held : c.history[i]? = some h) (descriptor : h.descriptor < 2 ^ 40) (base : h.base < 2 ^ 40) (count : h.count < 2 ^ 32)
    (first : h.first < 2 ^ 32) :
    (⟨bytesAt (anchorImage c generation) (0x0C0 + 32 * i) 5, bytesAt (anchorImage c generation) (0x0C8 + 32 * i) 5,
      bytesAt (anchorImage c generation) (0x0D0 + 32 * i) 4, bytesAt (anchorImage c generation) (0x0D4 + 32 * i) 4,
      bytesAt (anchorImage c generation) (0x0D8 + 32 * i) 1 % 2 == 1⟩ : Segment) = h := by
  have wide {v : Nat} (small : v < 2 ^ 40) : v < 2 ^ (8 * 8) := small.trans (by decide)
  have notify : ((if h.notify = true then 1 else 0) % 2 == 1) = h.notify := by cases h.notify <;> rfl
  rw [bytesAt_low_eq (t := 8) (by decide)
      (anchorImage_entry marks history held (v := h.descriptor) (by simp [historyFields]) (wide descriptor)) descriptor,
    bytesAt_low_eq (t := 8) (by decide)
      (anchorImage_entry marks history held (v := h.base) (by simp [historyFields]) (wide base)) base,
    anchorImage_entry marks history held (v := h.count) (by simp [historyFields]) count,
    anchorImage_entry marks history held (v := h.first) (by simp [historyFields]) first,
    anchorImage_entry marks history held (v := if h.notify = true then 1 else 0) (by simp [historyFields]) (flag_lt h.notify),
    notify]

/-- A list read entry by entry, up to its own length. -/
theorem map_range_eq {α : Type} {l : List α} {n most : Nat} {read : Nat → α} (length : n = l.length) (bound : l.length ≤ most)
    (each : ∀ i a, l[i]? = some a → read i = a) : (List.range (min most n)).map read = l := by
  subst length
  refine List.ext_getElem (by simp [bound]) fun i inside place => ?_
  rw [List.getElem_map, List.getElem_range]
  exact each i _ (List.getElem?_eq_getElem place)

theorem copyContents_anchorImage (marks : c.marks.length ≤ 8) (history : c.history.length ≤ 16) (target : c.target < 2 ^ 32)
    (epoch : c.epoch < 2 ^ 32) (next : c.nextSequence < 2 ^ 32) (stall : ∀ k, c.stallLimit = some k → k ≤ 10)
    (markBounds : ∀ m ∈ c.marks, m.epoch < 2 ^ 32 ∧ m.sequence < 2 ^ 32)
    (entryBounds : ∀ h ∈ c.history, h.descriptor < 2 ^ 40 ∧ h.base < 2 ^ 40 ∧ h.count < 2 ^ 32 ∧ h.first < 2 ^ 32) :
    copyContents (anchorImage c generation) = c := by
  obtain ⟨clean, invalidated, pending, flags⟩ := flagByte_reads c
  obtain ⟨policy, policy_lt⟩ := policyOfCode_code c.policy
  obtain ⟨limit, limit_lt⟩ := stallOfCode_code stall
  have head {o s v : Nat} (field : (o, s, v) ∈ copyHead c generation) (behind : 8 ≤ o) (small : v < 2 ^ (8 * s)) :
      bytesAt (anchorImage c generation) o s = v := anchorImage_head marks history field behind small
  have stamp := head (o := 0x008) (s := 4) (v := c.stamp.toNat) (by simp [copyHead]) (by decide) c.stamp.isLt
  have flagged := head (o := 0x010) (s := 1) (v := flagByte c) (by simp [copyHead]) (by decide) flags
  have policed := head (o := 0x011) (s := 1) (v := c.policy.code) (by simp [copyHead]) (by decide) policy_lt
  have limited := head (o := 0x012) (s := 1) (v := stallCode c.stallLimit) (by simp [copyHead]) (by decide) limit_lt
  have markCount := head (o := 0x014) (s := 1) (v := c.marks.length) (by simp [copyHead]) (by decide)
    (Nat.lt_of_le_of_lt marks (by decide))
  have entryCount := head (o := 0x015) (s := 1) (v := c.history.length) (by simp [copyHead]) (by decide)
    (Nat.lt_of_le_of_lt history (by decide))
  have targeted := head (o := 0x018) (s := 4) (v := c.target) (by simp [copyHead]) (by decide) target
  have epochs := head (o := 0x01C) (s := 4) (v := c.epoch) (by simp [copyHead]) (by decide) epoch
  have nexts := head (o := 0x020) (s := 4) (v := c.nextSequence) (by simp [copyHead]) (by decide) next
  have readMarks := map_range_eq markCount marks fun i m held => readMark (generation := generation) marks history held
    (markBounds m (List.mem_of_getElem? held)).1 (markBounds m (List.mem_of_getElem? held)).2
  have readHistory := map_range_eq entryCount history fun i h held => by
    obtain ⟨descriptor, base, count, first⟩ := entryBounds h (List.mem_of_getElem? held)
    exact readEntry (generation := generation) marks history held descriptor base count first
  rw [copyContents, readMarks, readHistory, stamp, flagged, policed, limited, targeted, epochs, nexts, clean, invalidated, pending,
    policy, limit, BitVec.ofNat_toNat, BitVec.setWidth_eq]

theorem copyGeneration_anchorImage (marks : c.marks.length ≤ 8) (history : c.history.length ≤ 16) :
    copyGeneration (anchorImage c generation) = generation := by
  rw [copyGeneration, anchorImage_head marks history (v := generation.toNat) (by simp [copyHead]) (by decide) generation.isLt,
    BitVec.ofNat_toNat, BitVec.setWidth_eq]

end

/-- Settles O12: field by field from the layouts, the check codes by the CRC of their bare lines. -/
theorem writtenFormatsReadBack : Obligations.WrittenFormatsReadBack := by
  unfold Obligations.WrittenFormatsReadBack
  refine ⟨fun kind stream region stamp sequence epoch line label image kindLt streamLt regionLt stampLt sequenceLt epochLt lineLt
      labelLt => ?_, fun c generation marks history => ⟨anchorImage_valid marks history, copyGeneration_anchorImage marks history,
      copyContents_anchorImage marks history⟩, fun r stream region epoch label sequence address first second => ?_,
    fun number snapshot numberLt addressLt => ?_, fun number cause second results numberLt => ?_,
    fun head producer headLt producerLt => ?_, fun n m => crc_eq m, fun header bare image clear => ?_, fun copy bare clear => ?_⟩
  · have field {o s v : Nat} (field : (o, s, v) ∈ headerFields kind stream region stamp sequence epoch line label)
        (before : o + s ≤ 0x1C) (small : v < 2 ^ (8 * s)) := recordHeader_field (image := image) field before small
    refine ⟨field (by simp [headerFields]) (by decide) kindLt, field (by simp [headerFields]) (by decide) streamLt,
      field (by simp [headerFields]) (by decide) regionLt, field (by simp [headerFields]) (by decide) stampLt,
      field (by simp [headerFields]) (by decide) sequenceLt, field (by simp [headerFields]) (by decide) epochLt, ?_,
      field (by simp [headerFields]) (by decide) labelLt, recordHeader_checks⟩
    exact bytesAt_low_eq (t := 8) (by decide)
      (field (by simp [headerFields]) (by decide) (lineLt.trans (by decide))) lineLt
  · have gap (o s : Nat) (apart : ∀ f ∈ reportFields r, Apart (o, s, 0) f) : bytesAt r.encode o s = 0 := bytesAt_layout_gap apart
    have field {o s v : Nat} (field : (o, s, v) ∈ reportFields r) (fits : 8 * (o + s) ≤ 512) (small : v < 2 ^ (8 * s)) :=
      encode_field field fits small
    exact ⟨field (by simp [reportFields]) (by decide) (kindCode_lt r.kind),
      field (by simp [reportFields]) (by decide) (flag_lt r.lap),
      field (by simp [reportFields]) (by decide) r.tag.isLt,
      field (by simp [reportFields]) (by decide) (statusCode_lt r.status),
      field (by simp [reportFields]) (by decide) stream, field (by simp [reportFields]) (by decide) region,
      gap _ _ (by simp [reportFields, Apart]), field (by simp [reportFields]) (by decide) r.number.isLt,
      field (by simp [reportFields]) (by decide) epoch, field (by simp [reportFields]) (by decide) label,
      field (by simp [reportFields]) (by decide) sequence, field (by simp [reportFields]) (by decide) address,
      field (by simp [reportFields]) (by decide) first, field (by simp [reportFields]) (by decide) second,
      gap _ _ (by simp [reportFields, Apart])⟩
  · have gap (o s : Nat) (apart : ∀ f ∈ faultFirstFields number snapshot, Apart (o, s, 0) f) :
        bytesAt (faultFirstLine number snapshot) o s = 0 := by
      rw [faultFirstLine_eq]
      exact bytesAt_layout_gap apart
    refine ⟨faultFirst_field (by simp [faultFirstFields]) (by decide) numberLt, gap _ _ (by simp [faultFirstFields, Apart]),
      gap _ _ (by simp [faultFirstFields, Apart]), gap _ _ (by simp [faultFirstFields, Apart]), fun s => ⟨?_, ?_⟩⟩
    · exact faultFirst_field (List.mem_cons_of_mem _ (List.mem_flatMap.mpr ⟨s, mem_four s, List.mem_cons_self⟩)) (by omega)
        (flag_lt _)
    · exact faultFirst_field (List.mem_cons_of_mem _ (List.mem_flatMap.mpr
        ⟨s, mem_four s, List.mem_cons_of_mem _ List.mem_cons_self⟩)) (by omega) (addressLt s)
  · have gap (o s : Nat) (apart : ∀ f ∈ faultClosingFields number cause second results, Apart (o, s, 0) f) :
        bytesAt (faultClosingLine number cause second results) o s = 0 := by
      rw [faultClosingLine_eq]
      exact bytesAt_layout_gap apart
    have codes (c : Option (DeviceCause × CheckDetail)) (o : Nat) (fits : o + 2 ≤ 64)
        (first : (o, 1, (checkCodes c).1) ∈ faultClosingFields number cause second results)
        (next : (o + 1, 1, (checkCodes c).2) ∈ faultClosingFields number cause second results) :
        bytesAt (faultClosingLine number cause second results) o 1 = (checkCodes c).1
        ∧ bytesAt (faultClosingLine number cause second results) (o + 1) 1 = (checkCodes c).2 :=
      ⟨faultClosing_field first (by omega) (checkCodes_lt c).1, faultClosing_field next (by omega) (checkCodes_lt c).2⟩
    have causes := codes cause 0x08 (by decide) (by simp [faultClosingFields]) (by simp [faultClosingFields])
    have seconds := codes second 0x0A (by decide) (by simp [faultClosingFields]) (by simp [faultClosingFields])
    refine ⟨faultClosing_field (by simp [faultClosingFields]) (by decide) (by decide),
      faultClosing_field (by simp [faultClosingFields]) (by decide) numberLt, ?_, ?_, fun s => ?_,
      gap _ _ (by simp [faultClosingFields, Apart])⟩
    · cases cause <;> exact causes
    · cases second <;> exact seconds
    · exact faultClosing_field (List.mem_append_right _ (List.mem_map.mpr ⟨s, mem_four s, rfl⟩)) (by omega)
        (resultCode_lt _)
  · have gap (o s : Nat) (apart : ∀ f ∈ [(0x00, 8, head), (0x08, 8, producer)], Apart (o, s, 0) f) :
        bytesAt (Machine.headLine head producer) o s = 0 := bytesAt_layout_gap apart
    exact ⟨headLine_field (by simp) (by decide) headLt, headLine_field (by simp) (by decide) producerLt,
      gap _ _ (by simp [Apart])⟩
  · have bare_eq : zeroed header 0x1C 4 = bare := eq_zeroed clear
    refine ⟨by rw [recordCheckCode, bare_eq], ?_⟩
    rw [recordChecks, decide_eq_true_iff, recordCheckCode, bare_eq]
  · have bare_eq : zeroed copy 0x004 4 = bare := eq_zeroed clear
    refine ⟨by rw [anchorCheckCode, bare_eq], ?_⟩
    rw [copyValid, Bool.and_eq_true, decide_eq_true_iff, decide_eq_true_iff, anchorCheckCode, bare_eq]
    rfl

end Sys2Proof.Proofs

/-! PROOF. The steps that the Capture Unit's part of stream loss is made of (R55, R56): one relation for a step, and the operations of
the loss as runs of such steps. -/
namespace Sys2Proof.Proofs
open Sys2Proof Sys2Proof.Machine

/-- The slot has no owner outside `T`. -/
def OwnedWithin (T : ReqTag → Prop) (d : Device) (k : SlotNo) : Prop :=
  ∀ c, d.capture.slots.get k = some c → ∀ t, c.owner = some t → T t

/-- The slot queue with its front member gone (R47). -/
def dequeued (rest : List ReqTag) (d : Device) : Device := { d with capture := { d.capture with queue := rest } }

/-- One step of the loss: it answers tags of `T` alone, and writes slots of `K` alone, whose owners are of `T`. -/
inductive LossStep (T : ReqTag → Prop) (K : SlotNo → Prop) : Device → Device → Prop
  | answers {d : Device} {t : ReqTag} (named : T t) : LossStep T K d (respond t .retry d)
  | releases {d : Device} (line : Nat) : LossStep T K d (releaseLine line d)
  | leaves {d : Device} (line : Nat) (t : ReqTag) : LossStep T K d (leaveLine line t d)
  | unlinks {d : Device} {k : SlotNo} (named : K k) : LossStep T K d (removeSlotEntry k d)
  | unplaces {d : Device} (k : SlotNo) (s : StreamNo) : LossStep T K d (leavePositions k s d)
  | withdraws {d : Device} (k : SlotNo) : LossStep T K d (withdraw (· == .capture k) d)
  | writes {d : Device} {k : SlotNo} {y : Option Slot} (named : K k) (owned : OwnedWithin T d k)
      (ownerless : ∀ c, y = some c → c.owner = none) : LossStep T K d (d.withSlot k y)
  | serves {d : Device} {k : SlotNo} {t : ReqTag} {rest : List ReqTag} (named : K k) (free : d.capture.slots.get k = none)
      (front : d.capture.queue = t :: rest) (state : d.check.state = .normal) :
      LossStep T K d (takeSlot t k (dequeued rest d))

/-- A run of steps. -/
def LossSteps (T : ReqTag → Prop) (K : SlotNo → Prop) : Device → Device → Prop := Relation.ReflTransGen (LossStep T K)

section
variable {T U : ReqTag → Prop} {K L : SlotNo → Prop} {d e : Device}

theorem LossSteps.refl (d : Device) : LossSteps T K d d := Relation.ReflTransGen.refl

theorem LossSteps.of_eq (same : e = d) : LossSteps T K d e := by
  rw [same]
  exact .refl d

theorem LossSteps.trans {f : Device} (first : LossSteps T K d e) (next : LossSteps T K e f) : LossSteps T K d f :=
  Relation.ReflTransGen.trans first next

theorem LossStep.run (step : LossStep T K d e) : LossSteps T K d e := Relation.ReflTransGen.single step

theorem LossSteps.step {f : Device} (first : LossSteps T K d e) (next : LossStep T K e f) : LossSteps T K d f :=
  Relation.ReflTransGen.tail first next

theorem LossStep.mono (tags : ∀ t, T t → U t) (slots : ∀ k, K k → L k) (step : LossStep T K d e) : LossStep U L d e := by
  cases step with
  | answers named => exact .answers (tags _ named)
  | releases line => exact .releases line
  | leaves line t => exact .leaves line t
  | unlinks named => exact .unlinks (slots _ named)
  | unplaces k s => exact .unplaces k s
  | withdraws k => exact .withdraws k
  | writes named owned ownerless =>
    exact .writes (slots _ named) (fun c slot t owner => tags t (owned c slot t owner)) ownerless
  | serves named free front state => exact .serves (slots _ named) free front state

theorem LossSteps.mono (tags : ∀ t, T t → U t) (slots : ∀ k, K k → L k) (steps : LossSteps T K d e) : LossSteps U L d e := by
  induction steps with
  | refl => exact .refl d
  | tail _ step ih => exact ih.step (step.mono tags slots)

/-- What every step keeps, a run keeps. -/
theorem LossSteps.keep {P : Device → Prop} (steps : LossSteps T K d e) (start : P d)
    (each : ∀ {a b : Device}, P a → LossStep T K a b → P b) : P e := by
  induction steps with
  | refl => exact start
  | tail _ step ih => exact each ih step

/-- A fold whose every member is a run. -/
theorem LossSteps.foldl {α : Type} {f : Device → α → Device} (l : List α) (each : ∀ d a, LossSteps T K d (f d a)) (d : Device) :
    LossSteps T K d (l.foldl f d) := by
  induction l generalizing d with
  | nil => exact .refl d
  | cons a l ih => exact (each d a).trans (ih _)

/-! ## Operations as runs -/

theorem respond_slots (t : ReqTag) (a : Response) (d : Device) (k : SlotNo) :
    (respond t a d).capture.slots.get k = d.capture.slots.get k := by rw [respond_capture]

theorem answerOwner_slots (owner : Option ReqTag) (line : Nat) (a : Response) (d : Device) (k : SlotNo) :
    (answerOwner owner line a d).capture.slots.get k = d.capture.slots.get k := by
  cases owner with
  | none => rfl
  | some t => exact respond_slots t a d k

/-- The owner of a slot answered RETRY, its line kept. -/
def ownerTold (owner : Option ReqTag) (d : Device) : Device :=
  match owner with
  | some t => respond t .retry d
  | none => d

theorem ownerTold_slots (owner : Option ReqTag) (d : Device) (k : SlotNo) :
    (ownerTold owner d).capture.slots.get k = d.capture.slots.get k := by
  cases owner with
  | none => rfl
  | some t => exact respond_slots t .retry d k

theorem ownerTold_steps {owner : Option ReqTag} (named : ∀ t, owner = some t → T t) (d : Device) :
    LossSteps T K d (ownerTold owner d) := by
  cases owner with
  | none => exact .refl d
  | some t => exact (LossStep.answers (named t rfl)).run

theorem answerOwner_told (owner : Option ReqTag) (line : Nat) (d : Device) :
    LossSteps T K (ownerTold owner d) (answerOwner owner line .retry d) := by
  cases owner with
  | none => exact .refl d
  | some t => exact (LossStep.releases line).run

/-- An entry's removal leaves a slot its owner, or leaves it empty. -/
theorem removeSlotEntry_slots (j : SlotNo) (d : Device) (k : SlotNo) : (removeSlotEntry j d).capture.slots.get k =
    if ∃ f ∈ d.capture.filter, f.state = .pending j ∧ f.state = .pending k
    then (d.capture.slots.get k).map fun c => { c with linked := false } else d.capture.slots.get k := by
  rw [removeSlotEntry_eq, removeEntries_slots]
  exact if_congr (by simp) rfl rfl

theorem OwnedWithin.of_slots {k : SlotNo} (owned : OwnedWithin T d k)
    (slots : ∀ c, e.capture.slots.get k = some c → ∃ b, d.capture.slots.get k = some b ∧ c.owner = b.owner) :
    OwnedWithin T e k := by
  intro c slot t owner
  obtain ⟨b, before, same⟩ := slots c slot
  exact owned b before t (same ▸ owner)

theorem removeSlotEntry_owner {j k : SlotNo} {c : Slot} (slot : (removeSlotEntry j d).capture.slots.get k = some c) :
    ∃ b, d.capture.slots.get k = some b ∧ c.owner = b.owner := by
  rw [removeSlotEntry_slots] at slot
  split at slot
  · obtain ⟨b, before, rfl⟩ := Option.map_eq_some_iff.mp slot
    exact ⟨b, before, rfl⟩
  · exact ⟨c, slot, rfl⟩

theorem freeSlot_steps {k : SlotNo} (named : K k) (owned : OwnedWithin T d k) : LossSteps T K d (freeSlot k d) := by
  have freed : LossStep T K d (d.withSlot k none) := .writes named owned fun c none_some => by cases none_some
  have empty : (d.withSlot k none).capture.slots.get k = none := Table.get_set ..
  cases front : d.capture.queue with
  | nil =>
    rw [freeSlot_queue_empty front]
    exact freed.run
  | cons t rest =>
    by_cases state : d.check.state = .normal
    · rw [freeSlot_served front state]
      exact freed.run.step (.serves (d := d.withSlot k none) named empty front state)
    · rw [freeSlot_handling state]
      exact freed.run

/-- A cancelled slot is one whose owner is told, and then left (R55). -/
theorem cancelSlot_told {k : SlotNo} {c : Slot} (named : K k) (slot : d.capture.slots.get k = some c)
    (owners : ∀ t, c.owner = some t → T t) (unplaced : c.phase = .reading ∨ c.phase = .waitingPosition) :
    LossSteps T K (ownerTold c.owner d) (cancelSlot k d) := by
  have owned : OwnedWithin T d k := fun b before t owner => by
    obtain rfl : c = b := Option.some.inj (slot.symm.trans before)
    exact owners t owner
  have unlinked_owned : ∀ e : Device, (∀ j, e.capture.slots.get j = d.capture.slots.get j) →
      OwnedWithin T (removeSlotEntry k e) k := fun e slots => owned.of_slots fun b after => by
    obtain ⟨b', before, same⟩ := removeSlotEntry_owner after
    exact ⟨b', (slots k).symm.trans before, same⟩
  have told : LossSteps T K (ownerTold c.owner d) (removeSlotEntry k (answerOwner c.owner c.line .retry d)) :=
    (answerOwner_told ..).step (.unlinks named)
  have told_owned := unlinked_owned _ (answerOwner_slots c.owner c.line .retry d)
  rcases unplaced with phase | phase
  · by_cases issued : captureIssued d k = true
    · rw [cancelSlot_issued slot phase issued]
      exact (LossStep.unlinks named).run.step (.writes named (unlinked_owned _ (ownerTold_slots c.owner d)) fun b written => by
        cases written
        rfl)
    · have withdrawn : (withdraw (· == .capture k) (removeSlotEntry k (answerOwner c.owner c.line .retry d))).capture =
          (removeSlotEntry k (answerOwner c.owner c.line .retry d)).capture := by rw [withdraw_eq]
      rw [cancelSlot_unissued slot phase issued]
      exact (told.step (.withdraws k)).trans (freeSlot_steps named fun b after => told_owned b (withdrawn ▸ after))
  · rw [cancelSlot_waiting slot phase]
    exact (told.step (.unplaces k c.stream)).trans (freeSlot_steps named told_owned)

/-! ### A slot of a lost stream (R56) -/

section
variable {k : SlotNo} {c : Slot}

theorem loseSlot_empty (empty : d.capture.slots.get k = none) : loseSlot k d = d := by
  simp only [loseSlot, empty]

theorem loseSlot_unplaced (slot : d.capture.slots.get k = some c) (phase : c.phase = .reading ∨ c.phase = .waitingPosition) :
    loseSlot k d = cancelSlot k d := by
  rcases phase with phase | phase <;> simp only [loseSlot, slot, phase]

theorem loseSlot_writing (slot : d.capture.slots.get k = some c) (phase : c.phase = .writing) :
    loseSlot k d = loseWritingSlot k c (answerOwner c.owner c.line .retry d) := by
  simp only [loseSlot, slot, phase]

theorem loseSlot_done (slot : d.capture.slots.get k = some c) (phase : c.phase = .done) :
    loseSlot k d = freeSlot k (answerOwner c.owner c.line .retry d) := by
  simp only [loseSlot, slot, phase]

theorem loseSlot_cancelled (slot : d.capture.slots.get k = some c) (phase : c.phase = .cancelled) : loseSlot k d = d := by
  simp only [loseSlot, slot, phase]

/-- A slot that is lost is one whose owner is told, and then left. -/
theorem loseSlot_told (named : K k) (slot : d.capture.slots.get k = some c) (owners : ∀ t, c.owner = some t → T t)
    (held : c.phase ≠ .cancelled) : LossSteps T K (ownerTold c.owner d) (loseSlot k d) := by
  have told : LossSteps T K (ownerTold c.owner d) (answerOwner c.owner c.line .retry d) := answerOwner_told ..
  have told_owned : OwnedWithin T (answerOwner c.owner c.line .retry d) k := fun b after t owner => by
    obtain rfl : c = b := Option.some.inj (slot.symm.trans ((answerOwner_slots ..).symm.trans after))
    exact owners t owner
  cases phase : c.phase with
  | reading => exact loseSlot_unplaced slot (.inl phase) ▸ cancelSlot_told named slot owners (.inl phase)
  | waitingPosition => exact loseSlot_unplaced slot (.inr phase) ▸ cancelSlot_told named slot owners (.inr phase)
  | writing =>
    rw [loseSlot_writing slot phase, loseWritingSlot]
    split
    · exact told.trans (freeSlot_steps named told_owned)
    · exact told.step (.writes named told_owned fun b written => by
        cases written
        rfl)
  | done =>
    rw [loseSlot_done slot phase]
    exact told.trans (freeSlot_steps named told_owned)
  | cancelled => exact absurd phase held

theorem loseSlot_steps (named : K k) (owned : OwnedWithin T d k) : LossSteps T K d (loseSlot k d) := by
  cases slot : d.capture.slots.get k with
  | none => exact .of_eq (loseSlot_empty slot)
  | some c =>
    by_cases cancelled : c.phase = .cancelled
    · exact .of_eq (loseSlot_cancelled slot cancelled)
    · exact (ownerTold_steps (owned c slot) d).trans (loseSlot_told named slot (owned c slot) cancelled)

end

/-! ### A held write of a lost stream (R56) -/

section
variable {st : StreamNo} {t : ReqTag} {q : Request}

theorem loseWrite_absent (absent : d.path.requests.get t = none) : loseWrite st d t = d := by
  simp only [loseWrite, absent]

theorem loseWrite_other (entry : d.path.requests.get t = some q) (other : isHeldWriteOf st q = false) : loseWrite st d t = d := by
  simp only [loseWrite, entry, other, Bool.false_eq_true, if_false]

theorem loseWrite_waitOrder (entry : d.path.requests.get t = some q) (held : isHeldWriteOf st q = true)
    (state : q.state = .waitOrder) : loseWrite st d t = respond t .retry (leaveLine q.line t d) := by
  simp only [loseWrite, entry, held, if_true, state]

theorem loseWrite_waitSlot (entry : d.path.requests.get t = some q) (held : isHeldWriteOf st q = true)
    (state : q.state = .waitSlot) : loseWrite st d t = respond t .retry (releaseLine q.line d) := by
  simp only [loseWrite, entry, held, if_true, state]

theorem loseWrite_slotless (entry : d.path.requests.get t = some q) (held : isHeldWriteOf st q = true)
    (state : q.state = .capturing) (slotless : slotOwnedBy d t = none) :
    loseWrite st d t = respond t .retry (releaseLine q.line d) := by
  simp only [loseWrite, entry, held, if_true, state, slotless]

theorem loseWrite_owning {k : SlotNo} {c : Slot} (entry : d.path.requests.get t = some q) (held : isHeldWriteOf st q = true)
    (state : q.state = .capturing) (owns : slotOwnedBy d t = some (k, c)) : loseWrite st d t = loseSlot k d := by
  simp only [loseWrite, entry, held, if_true, state, owns]

theorem loseWrite_waitMode (entry : d.path.requests.get t = some q) (held : isHeldWriteOf st q = true)
    (state : q.state = .waitMode ∨ q.state = .ready ∨ q.state = .forwarded) : loseWrite st d t = d := by
  rcases state with state | state | state <;> simp only [loseWrite, entry, held, if_true, state]

/-- The write owns its slot, and nobody else does. -/
theorem ownedWithin_of_slotOwnedBy {k : SlotNo} {c : Slot} (owns : slotOwnedBy d t = some (k, c)) : OwnedWithin (· = t) d k := by
  obtain ⟨slot, owner⟩ := slotOwnedBy_get owns
  intro b before u other
  obtain rfl : c = b := Option.some.inj (slot.symm.trans before)
  exact Option.some.inj (other.symm.trans owner)

/-- A held write ends in steps that leave every slot, or with the slot it owns. -/
theorem loseWrite_cases (st : StreamNo) (t : ReqTag) (d : Device) :
    LossSteps (· = t) (fun _ => False) d (loseWrite st d t)
      ∨ ∃ k c, slotOwnedBy d t = some (k, c) ∧ loseWrite st d t = loseSlot k d := by
  cases entry : d.path.requests.get t with
  | none => exact .inl (.of_eq (loseWrite_absent entry))
  | some q =>
    cases held : isHeldWriteOf st q with
    | false => exact .inl (.of_eq (loseWrite_other entry held))
    | true =>
      cases state : q.state with
      | waitMode => exact .inl (.of_eq (loseWrite_waitMode entry held (.inl state)))
      | waitOrder =>
        rw [loseWrite_waitOrder entry held state]
        exact .inl ((LossStep.leaves q.line t).run.step (.answers rfl))
      | waitSlot =>
        rw [loseWrite_waitSlot entry held state]
        exact .inl ((LossStep.releases q.line).run.step (.answers rfl))
      | capturing =>
        cases owns : slotOwnedBy d t with
        | none =>
          rw [loseWrite_slotless entry held state owns]
          exact .inl ((LossStep.releases q.line).run.step (.answers rfl))
        | some p => exact .inr ⟨p.1, p.2, rfl, loseWrite_owning entry held state owns⟩
      | ready => exact .inl (.of_eq (loseWrite_waitMode entry held (.inr (.inl state))))
      | forwarded => exact .inl (.of_eq (loseWrite_waitMode entry held (.inr (.inr state))))

theorem loseWrite_steps (st : StreamNo) (t : ReqTag) (d : Device) : LossSteps (· = t) (fun _ => True) d (loseWrite st d t) := by
  rcases loseWrite_cases st t d with steps | ⟨k, c, owns, same⟩
  · exact steps.mono (fun _ named => named) fun _ named => named.elim
  · rw [same]
    exact loseSlot_steps trivial (ownedWithin_of_slotOwnedBy owns)

end

/-! ### The Capture Unit's part as a whole -/

/-- The held writes of the stream ended, in ascending tag. -/
def writesLost (st : StreamNo) (d : Device) : Device := (indices 64).foldl (loseWrite st) (leaveSlotQueue st d)

/-- Then its slots, in ascending number. -/
def slotsLost (st : StreamNo) (d : Device) : Device :=
  (slotsOf (writesLost st d) st).foldl (fun e p => if p.2.lost then e else loseSlot p.1 e) (writesLost st d)

theorem loseCaptures_eq (st : StreamNo) (d : Device) : loseCaptures st d =
    (removeStreamEntries st (slotsLost st d)).withStream st fun x => { x with saturated := false } := rfl

theorem writesLost_steps (st : StreamNo) (d : Device) :
    LossSteps (fun _ => True) (fun _ => True) (leaveSlotQueue st d) (writesLost st d) :=
  LossSteps.foldl _ (fun d t => (loseWrite_steps st t d).mono (fun _ _ => trivial) fun _ _ => trivial) _

theorem slotsLost_steps (st : StreamNo) (d : Device) :
    LossSteps (fun _ => True) (fun _ => True) (writesLost st d) (slotsLost st d) := by
  refine LossSteps.foldl _ (fun e p => ?_) _
  split
  · exact .refl e
  · exact loseSlot_steps trivial fun _ _ _ _ => trivial

end

end Sys2Proof.Proofs

/-! PROOF. What the steps of the Capture Unit's part of stream loss leave: the Arbiter's tags, the part's own requests, the CAPTURED
entries of the filter, the requests answered and the admitted counts (R4, R33, R43, R56). -/
namespace Sys2Proof.Proofs
open Sys2Proof Sys2Proof.Machine

section
variable {d : Device} {t : ReqTag} {rest : List ReqTag} {k : SlotNo}

/-! ## A slot taken from the queue -/

/-- The filter with the entry of a capture, or the filter as it stood (R44). -/
theorem enterFilter_eq (k : SlotNo) (c : Slot) (d : Device) : ∃ fs ss u,
    enterFilter k c d = { d with capture := { d.capture with filter := fs }, streams := ss, report := u }
    ∧ (fs = d.capture.filter ∨ fs = insertEntry ⟨c.line, c.region, .pending k⟩ d.capture.filter) := by
  by_cases room : d.capture.filter.length < 2048
  · exact ⟨_, d.streams, d.report, enterFilter_room room, .inr rfl⟩
  · cases saturated : (d.streams.get c.stream).saturated with
    | true => exact ⟨d.capture.filter, _, d.report, enterFilter_full_known (Nat.not_lt.mp room) saturated, .inl rfl⟩
    | false => exact ⟨d.capture.filter, _, _, enterFilter_full_new (Nat.not_lt.mp room) saturated, .inl rfl⟩

/-- The part after a slot is taken: `c` in slot `k`, the write in CAPTURING, the capture read in its class. -/
def slotServed (d : Device) (t : ReqTag) (q : Request) (k : SlotNo) (c : Slot) (fs : List FilterEntry) (ss : Table Stream 4)
    (u : ReportUnit) : Device := { d with
  path := { d.path with requests := d.path.requests.set t (some { q with state := .capturing }) }
  capture := { d.capture with slots := d.capture.slots.set k (some c), filter := fs }
  arbiter := { d.arbiter with waiting := d.arbiter.waiting ++ [readOf (.capture k) q.line] }
  streams := ss, report := u }

theorem takeSlot_cases (state : d.check.state = .normal) : takeSlot t k (dequeued rest d) = dequeued rest d
    ∨ ∃ q c fs ss u, d.path.requests.get t = some q ∧ c.owner = some t
      ∧ (fs = d.capture.filter ∨ fs = insertEntry ⟨c.line, c.region, .pending k⟩ d.capture.filter)
      ∧ takeSlot t k (dequeued rest d) = slotServed (dequeued rest d) t q k c fs ss u := by
  have same : ∀ u, (dequeued rest d).path.requests.get u = d.path.requests.get u := fun _ => rfl
  cases entry : d.path.requests.get t with
  | none => exact .inl (by simp only [takeSlot, same, entry])
  | some q =>
    cases journaled : q.stream with
    | none => exact .inl (by simp only [takeSlot, same, entry, journaled])
    | some s =>
      obtain ⟨fs, ss, u, written, filter⟩ :=
        enterFilter_eq k (filledSlot (dequeued rest d) t q s)
          (slotTaken (dequeued rest d) t q k (filledSlot (dequeued rest d) t q s))
      refine .inr ⟨q, filledSlot (dequeued rest d) t q s, fs, ss, u, rfl, rfl, filter, ?_⟩
      rw [takeSlot_eq (d := dequeued rest d) entry journaled state, written]
      rfl

end

/-! ## The Arbiter -/

/-- Whether the request is a capture read. -/
def Job.isCapture : Job → Bool
  | .capture _ => true
  | _ => false

section
variable {T : ReqTag → Prop} {K : SlotNo → Prop} {x d e : Device}

theorem LossStep.check (step : LossStep T K d e) : e.check = d.check := by
  cases step with
  | answers => exact (respond_kept (.refl d) _ _).check
  | releases => rfl
  | leaves => rfl
  | unlinks => exact (removeSlotEntry_kept (.refl d) _).check
  | unplaces => rfl
  | withdraws => exact (withdraw_kept (.refl d) _).check
  | writes => rfl
  | serves _ _ _ state =>
    rcases takeSlot_cases state with same | ⟨q, c, fs, ss, u, -, -, -, served⟩
    · rw [same, dequeued]
    · rw [served, slotServed, dequeued]

theorem respond_arbiter (t : ReqTag) (a : Response) (d : Device) : (respond t a d).arbiter = d.arbiter := by
  cases entry : d.path.requests.get t with
  | none => simp only [respond, entry]
  | some q => rw [respond_eq a entry]

theorem LossStep.issued (step : LossStep T K d e) : e.arbiter.issued = d.arbiter.issued := by
  cases step with
  | answers => rw [respond_arbiter]
  | releases => rfl
  | leaves => rfl
  | unlinks => rw [removeSlotEntry_eq, removeEntries_capture]
  | unplaces => rfl
  | withdraws => rw [withdraw_arbiter]
  | writes => rfl
  | serves _ _ _ state =>
    rcases takeSlot_cases state with same | ⟨q, c, fs, ss, u, -, -, -, served⟩
    · rw [same, dequeued]
    · rw [served, slotServed, dequeued]

/-- The requests of a class that are not capture reads stay. -/
theorem LossStep.waiting (step : LossStep T K d e) : e.arbiter.waiting.filter (fun r => !Job.isCapture r.job) =
    d.arbiter.waiting.filter fun r => !Job.isCapture r.job := by
  cases step with
  | answers => rw [respond_arbiter]
  | releases => rfl
  | leaves => rfl
  | unlinks => rw [removeSlotEntry_eq, removeEntries_capture]
  | unplaces => rfl
  | withdraws k =>
    rw [withdraw_arbiter]
    refine (List.filter_filter ..).trans (List.filter_congr fun r _ => ?_)
    cases job : r.job <;> simp [Job.isCapture]
  | writes => rfl
  | serves _ _ _ state =>
    rcases takeSlot_cases state with same | ⟨q, c, fs, ss, u, -, -, -, served⟩
    · rw [same, dequeued]
    · rw [served, slotServed, List.filter_append]
      exact List.append_nil _

/-! ## Line queues -/

/-- The requests of the part's own in line queues: none joins, and none leaves but those that `p` names. -/
structure AskersKept (p : Job → Bool) (d e : Device) : Prop where
  back : ∀ l ∈ e.path.locks, ∀ r, Asker.own r ∈ l.queue → ∃ m ∈ d.path.locks, .own r ∈ m.queue
  forth : ∀ l ∈ d.path.locks, ∀ r, Asker.own r ∈ l.queue → p r.job = false →
    ∃ m ∈ e.path.locks, m.line = l.line ∧ .own r ∈ m.queue

variable {p : Job → Bool}

theorem AskersKept.of_locks (same : e.path.locks = d.path.locks) : AskersKept p d e where
  back l mem _ waits := ⟨l, same ▸ mem, waits⟩
  forth l mem _ waits _ := ⟨l, same ▸ mem, rfl, waits⟩

theorem AskersKept.refl (d : Device) : AskersKept p d d := .of_locks rfl

theorem AskersKept.trans (first : AskersKept p x d) (next : AskersKept p d e) : AskersKept p x e where
  back l mem r waits := by
    obtain ⟨m, mem_m, waits_m⟩ := next.back l mem r waits
    exact first.back m mem_m r waits_m
  forth l mem r waits kept := by
    obtain ⟨m, mem_m, line_m, waits_m⟩ := first.forth l mem r waits kept
    obtain ⟨n, mem_n, line_n, waits_n⟩ := next.forth m mem_m r waits_m kept
    exact ⟨n, mem_n, line_n.trans line_m, waits_n⟩

/-- A lock written leaves each other lock, or is written over the first of its line. -/
theorem mem_putLock {l m : LineLock} {ls : List LineLock} (mem : m ∈ ls) :
    m ∈ putLock l ls ∨ (m.line = l.line ∧ ls.find? (·.line == l.line) = some m) := by
  induction ls with
  | nil => cases mem
  | cons n ls ih =>
    rw [putLock]
    by_cases below : n.line < l.line
    · have other : ¬ n.line = l.line := Nat.ne_of_lt below
      rw [if_pos below, List.find?_cons_of_neg (by simpa using other)]
      rcases List.mem_cons.mp mem with rfl | mem
      · exact .inl List.mem_cons_self
      · exact (ih mem).imp (List.mem_cons_of_mem n) id
    · rw [if_neg below]
      by_cases same : n.line = l.line
      · rw [if_pos same, List.find?_cons_of_pos (by simpa using same)]
        rcases List.mem_cons.mp mem with rfl | mem
        · exact .inr ⟨same, rfl⟩
        · left
          split
          · exact mem
          · exact List.mem_cons_of_mem l mem
      · rw [if_neg same]
        left
        split
        · exact mem
        · exact List.mem_cons_of_mem l mem

theorem idle_of_mem {l : LineLock} {a : Asker} (waits : a ∈ l.queue) : l.idle = false := by
  rw [LineLock.idle, List.isEmpty_eq_false_iff.mpr (List.ne_nil_of_mem waits), Bool.and_false]

theorem withLock_mem {line : Nat} {f : LineLock → LineLock} {m : LineLock} (mem : m ∈ d.path.locks) :
    m ∈ (d.withLock line f).path.locks ∨ (m.line = line ∧ lockOf d line = m) := by
  refine (mem_putLock mem).imp_right fun ⟨same, found⟩ => ⟨same, ?_⟩
  rw [lockOf, found]
  rfl

/-- A lock that is put with a waiter is there. -/
theorem putLock_self {l : LineLock} (busy : l.idle = false) (ls : List LineLock) : l ∈ putLock l ls := by
  induction ls with
  | nil => simp [putLock, busy]
  | cons n ls ih =>
    rw [putLock]
    split
    · exact List.mem_cons_of_mem n ih
    · split <;> simp [busy]

/-- A change of a line's lock that leaves the part's own requests in its queue. -/
theorem withLock_askers {line : Nat} {f : LineLock → LineLock} (keeps : ∀ l r, Asker.own r ∈ (f l).queue ↔ .own r ∈ l.queue) :
    AskersKept p d (d.withLock line f) where
  back l mem r waits := by
    rcases putLock_mem mem with old | ⟨rfl, -⟩
    · exact ⟨l, old, waits⟩
    · have waited : Asker.own r ∈ (lockOf d line).queue := (keeps _ r).mp waits
      rw [lockOf] at waited
      cases found : d.path.locks.find? (·.line == line) with
      | none => simp [found] at waited
      | some m => exact ⟨m, List.mem_of_find?_eq_some found, by simpa [found] using waited⟩
  forth l mem r waits _ := by
    rcases withLock_mem (line := line) (f := f) mem with kept | ⟨rfl, same⟩
    · exact ⟨l, kept, rfl, waits⟩
    · have waits' : Asker.own r ∈ (f (lockOf d l.line)).queue := (keeps _ r).mpr (by rwa [same])
      have busy : ({ f (lockOf d l.line) with line := l.line } : LineLock).idle = false := idle_of_mem waits'
      exact ⟨_, putLock_self busy _, rfl, waits'⟩

theorem releaseLine_askers (line : Nat) (d : Device) : AskersKept p d (releaseLine line d) := withLock_askers fun _ _ => Iff.rfl

theorem leaveLine_askers (line : Nat) (t : ReqTag) (d : Device) : AskersKept p d (leaveLine line t d) :=
  withLock_askers fun l r => by simp

/-- Requests that `p` names leave the queues; nobody else does. -/
theorem leaveQueues_askers (p : Job → Bool) (d : Device) : AskersKept p d (leaveQueues p d) where
  back l mem r waits := by
    obtain ⟨m, mem_m, rfl⟩ := List.mem_map.mp (List.mem_of_mem_filter mem)
    exact ⟨m, mem_m, List.mem_of_mem_filter waits⟩
  forth l mem r waits kept := by
    have stays : Asker.own r ∈ l.queue.filter (fun a => match a with | .own r => !p r.job | .upstream _ _ => true) :=
      List.mem_filter.mpr ⟨waits, by simp [kept]⟩
    exact ⟨_, List.mem_filter.mpr ⟨List.mem_map_of_mem mem, congrArg not (idle_of_mem stays)⟩, rfl, stays⟩

theorem foldl_releaseLine_askers (l : List PortRequest) (d : Device) : AskersKept p d
    (l.foldl (fun e r => if r.job.ownsLine = true then releaseLine r.line e else e) d) := by
  induction l generalizing d with
  | nil => exact .refl d
  | cons r l ih =>
    refine .trans ?_ (ih _)
    show AskersKept p d (if r.job.ownsLine = true then releaseLine r.line d else d)
    split
    · exact releaseLine_askers r.line d
    · exact .refl d

theorem withdraw_askers (p : Job → Bool) (d : Device) : AskersKept p d (withdraw p d) := by
  have unclassed : AskersKept p d (d.withArbiter fun a => { a with waiting := a.waiting.filter fun r => !p r.job }) :=
    .of_locks rfl
  exact (unclassed.trans (leaveQueues_askers p _)).trans (foldl_releaseLine_askers ..)

theorem AskersKept.mono {p' : Job → Bool} (kept : AskersKept p d e) (more : ∀ j, p j = true → p' j = true) :
    AskersKept p' d e where
  back := kept.back
  forth l mem r waits free := kept.forth l mem r waits (Bool.eq_false_iff.mpr fun named =>
    Bool.eq_false_iff.mp free (more r.job named))

theorem LossStep.askers (step : LossStep T K d e) : AskersKept Job.isCapture d e := by
  cases step with
  | answers => exact .of_locks (respond_locks ..)
  | releases line => exact releaseLine_askers line d
  | leaves line t => exact leaveLine_askers line t d
  | unlinks => exact .of_locks (by rw [removeSlotEntry_eq, removeEntries_path])
  | unplaces => exact .of_locks rfl
  | withdraws k =>
    refine (withdraw_askers (· == .capture k) d).mono fun j named => ?_
    rw [eq_of_beq named]
    rfl
  | writes => exact .of_locks rfl
  | serves _ _ _ state =>
    refine .of_locks ?_
    rcases takeSlot_cases state with same | ⟨q, c, fs, ss, u, -, -, -, served⟩
    · rw [same, dequeued]
    · rw [served, slotServed, dequeued]

/-! ## CAPTURED entries of the filter -/

theorem mem_insertEntry_of_mem {f g : FilterEntry} {fs : List FilterEntry} (mem : f ∈ fs) : f ∈ insertEntry g fs := by
  induction fs with
  | nil => cases mem
  | cons x fs ih =>
    rw [insertEntry]
    split
    · exact List.mem_cons_of_mem g mem
    · rcases List.mem_cons.mp mem with rfl | mem
      · exact List.mem_cons_self
      · exact List.mem_cons_of_mem x (ih mem)

/-- A CAPTURED entry names no slot, and is kept. -/
theorem LossStep.captured (step : LossStep T K d e) {f : FilterEntry} (captured : f.state = .captured)
    (mem : f ∈ d.capture.filter) : f ∈ e.capture.filter := by
  cases step with
  | answers => rwa [respond_capture]
  | releases => exact mem
  | leaves => exact mem
  | unlinks =>
    rw [removeSlotEntry_eq, removeEntries_filter]
    exact List.mem_filter.mpr ⟨mem, by rw [captured]; rfl⟩
  | unplaces => exact mem
  | withdraws => rwa [withdraw_eq]
  | writes => exact mem
  | serves _ _ _ state =>
    rcases takeSlot_cases state with same | ⟨q, c, fs, ss, u, -, -, filter, served⟩
    · rwa [same]
    · rw [served]
      rcases filter with rfl | rfl
      · exact mem
      · exact mem_insertEntry_of_mem mem

end

end Sys2Proof.Proofs

/-! PROOF. What the Capture Unit's part of stream loss answers, and what that does to the admitted counts (R4, R14, R56). -/
namespace Sys2Proof.Proofs
open Sys2Proof Sys2Proof.Machine

/-! ## Answers counted -/

/-- An answer to a request that was of region `r`, in a state that `counts`, as the part `d` stood. -/
def answersOf (d : Device) (r : RegionNo) (counts : RequestState → Bool) (p : ReqTag × Response) : Bool :=
  match d.path.requests.get p.1 with
  | some q => q.covering == some r && counts q.state
  | none => false

/-- How many of the answers are of that kind. -/
def answersTo (d : Device) (r : RegionNo) (counts : RequestState → Bool) (a : List (ReqTag × Response)) : Nat :=
  (a.filter (answersOf d r counts)).length

section
variable {x d e : Device} {r : RegionNo} {counts : RequestState → Bool} {a : List (ReqTag × Response)} {t : ReqTag} {q : Request}
  {answer : Response}

theorem answersTo_concat_hit (hit : answersOf d r counts (t, answer) = true) :
    answersTo d r counts (a ++ [(t, answer)]) = answersTo d r counts a + 1 := by
  simp [answersTo, hit]

theorem answersTo_concat_miss (miss : answersOf d r counts (t, answer) = false) :
    answersTo d r counts (a ++ [(t, answer)]) = answersTo d r counts a := by
  simp [answersTo, miss]

theorem answersOf_entry (entry : d.path.requests.get t = some q) :
    answersOf d r counts (t, answer) = (q.covering == some r && counts q.state) := by
  simp only [answersOf, entry]

/-! ## One answer -/

theorem respond_absent (answer : Response) (absent : d.path.requests.get t = none) : respond t answer d = d := by
  simp only [respond, absent]

theorem respond_requests (t : ReqTag) (answer : Response) (d : Device) (u : ReqTag) :
    (respond t answer d).path.requests.get u = if t = u then none else d.path.requests.get u := by
  by_cases same : t = u
  · subst same
    rw [if_pos rfl]
    cases entry : d.path.requests.get t with
    | none => rw [respond_absent answer entry, entry]
    | some q =>
      rw [respond_eq answer entry]
      exact Table.get_set ..
  · rw [if_neg same, respond_others same]

theorem respond_responses (answer : Response) (entry : d.path.requests.get t = some q) :
    (respond t answer d).responses = d.responses ++ [(t, answer)] := by
  rw [respond_eq answer entry]

/-- An answer takes one from its region's count, unless its request was not admitted. -/
theorem respond_admitted (answer : Response) (entry : d.path.requests.get t = some q) :
    ((respond t answer d).regions.get r).admitted =
      (d.regions.get r).admitted - if q.covering = some r ∧ q.state ≠ .waitMode then 1 else 0 := by
  rw [respond_eq answer entry]
  dsimp only
  cases covering : q.covering with
  | none => simp
  | some r' =>
    by_cases waits : q.state = .waitMode
    · simp [waits]
    · by_cases same : r' = r
      · subst same
        simp [waits]
      · simp [waits, same, Table.get_set_of_ne]

/-! ## A run of steps -/

/-- The entries are those that stood, some of them in CAPTURING since. -/
def EntriesKept (x e : Device) : Prop := ∀ t q', e.path.requests.get t = some q' → ∃ q, x.path.requests.get t = some q
  ∧ q'.covering = q.covering ∧ (q'.state = .waitMode → q.state = .waitMode)

/-- Since `x` the part has given the answers `a`, and each region's count has fallen by them: by those to requests surely
admitted at the least, by all of them at the most. -/
structure AnsweredBy (x : Device) (a : List (ReqTag × Response)) (e : Device) : Prop where
  entries : EntriesKept x e
  responses : e.responses = x.responses ++ a
  low : ∀ r, (x.regions.get r).admitted - answersTo x r (fun _ => true) a ≤ (e.regions.get r).admitted
  high : ∀ r, (e.regions.get r).admitted ≤ (x.regions.get r).admitted - answersTo x r (· != .waitMode) a

theorem EntriesKept.refl (x : Device) : EntriesKept x x := fun _ q' entry => ⟨q', entry, rfl, id⟩

theorem AnsweredBy.refl (x : Device) : AnsweredBy x [] x :=
  ⟨.refl x, (List.append_nil _).symm, fun _ => Nat.le_refl _, fun _ => Nat.le_refl _⟩

theorem AnsweredBy.same (answered : AnsweredBy x a d) (requests : e.path.requests = d.path.requests)
    (responses : e.responses = d.responses) (regions : e.regions = d.regions) : AnsweredBy x a e where
  entries t q' entry := answered.entries t q' (requests ▸ entry)
  responses := responses.trans answered.responses
  low r := regions ▸ answered.low r
  high r := regions ▸ answered.high r

theorem AnsweredBy.respond (answered : AnsweredBy x a d) (entry : d.path.requests.get t = some q) (answer : Response) :
    AnsweredBy x (a ++ [(t, answer)]) (respond t answer d) := by
  obtain ⟨q₀, before, covering, state⟩ := answered.entries t q entry
  have hit : ∀ r counts, answersOf x r counts (t, answer) = (q.covering == some r && counts q₀.state) := fun r counts => by
    rw [answersOf_entry before, covering]
  refine ⟨fun u q' after => ?_, ?_, fun r => ?_, fun r => ?_⟩
  · rw [respond_requests] at after
    split at after
    · cases after
    · exact answered.entries u q' after
  · rw [respond_responses answer entry, answered.responses, List.append_assoc]
  · have low := answered.low r
    rw [respond_admitted answer entry]
    by_cases covers : q.covering = some r
    · rw [answersTo_concat_hit (by simp [hit, covers])]
      split <;> omega
    · rw [answersTo_concat_miss (by simp [hit, covers]), if_neg (fun both => covers both.1)]
      exact low
  · have high := answered.high r
    rw [respond_admitted answer entry]
    by_cases firm : q.covering = some r ∧ q₀.state ≠ .waitMode
    · rw [answersTo_concat_hit (by simp [hit, firm]), if_pos ⟨firm.1, fun waits => firm.2 (state waits)⟩]
      omega
    · rw [answersTo_concat_miss (by simpa [hit] using firm)]
      omega

theorem AnsweredBy.captures (answered : AnsweredBy x a d) (entry : d.path.requests.get t = some q)
    (requests : e.path.requests = d.path.requests.set t (some { q with state := .capturing }))
    (responses : e.responses = d.responses) (regions : e.regions = d.regions) : AnsweredBy x a e where
  entries u q' after := by
    rw [requests] at after
    by_cases same : t = u
    · subst same
      rw [Table.get_set] at after
      obtain ⟨q₀, before, covering, -⟩ := answered.entries t q entry
      cases after
      exact ⟨q₀, before, covering, fun waits => by cases waits⟩
    · rw [Table.get_set_of_ne _ same] at after
      exact answered.entries u q' after
  responses := responses.trans answered.responses
  low r := regions ▸ answered.low r
  high r := regions ▸ answered.high r

end

section
variable {T : ReqTag → Prop} {K : SlotNo → Prop} {x d e : Device} {a : List (ReqTag × Response)}

theorem LossStep.answered (answered : AnsweredBy x a d) (step : LossStep T K d e) : ∃ b, AnsweredBy x b e := by
  cases step with
  | @answers t _ =>
    cases entry : d.path.requests.get t with
    | none => exact ⟨a, by rwa [respond_absent _ entry]⟩
    | some q => exact ⟨_, answered.respond entry _⟩
  | releases => exact ⟨a, answered.same rfl rfl rfl⟩
  | leaves => exact ⟨a, answered.same rfl rfl rfl⟩
  | unlinks => exact ⟨a, by rw [removeSlotEntry_eq, removeEntries_capture]; exact answered.same rfl rfl rfl⟩
  | unplaces => exact ⟨a, answered.same rfl rfl rfl⟩
  | withdraws => exact ⟨a, by rw [withdraw_eq]; exact answered.same rfl rfl rfl⟩
  | writes => exact ⟨a, answered.same rfl rfl rfl⟩
  | serves _ _ _ state =>
    rcases takeSlot_cases state with same | ⟨q, c, fs, ss, u, entry, -, -, served⟩
    · exact ⟨a, by rw [same]; exact answered.same rfl rfl rfl⟩
    · exact ⟨a, by rw [served]; exact answered.captures entry rfl rfl rfl⟩

theorem LossSteps.answered (steps : LossSteps T K d e) : ∃ a, AnsweredBy d a e :=
  steps.keep (P := fun e => ∃ a, AnsweredBy d a e) ⟨[], .refl d⟩ fun ⟨_, answered⟩ step => step.answered answered

end

end Sys2Proof.Proofs

/-! PROOF. Every held write of a lost stream is answered RETRY, in ascending tag (R56). -/
namespace Sys2Proof.Proofs
open Sys2Proof Sys2Proof.Machine

/-! ## The slot of a write -/

/-- The phase of a slot that the write owns. -/
def ownedPhase (d : Device) (g : ReqTag) (k : SlotNo) : Option SlotPhase :=
  (d.capture.slots.get k).bind fun c => if c.owner = some g then some c.phase else none

section
variable {d e x : Device} {g t : ReqTag} {k : SlotNo} {c : Slot}

theorem ownedPhase_slot (slot : d.capture.slots.get k = some c) :
    ownedPhase d g k = if c.owner = some g then some c.phase else none := by
  rw [ownedPhase, slot]
  rfl

theorem ownedPhase_empty (empty : d.capture.slots.get k = none) : ownedPhase d g k = none := by
  rw [ownedPhase, empty]
  rfl

theorem ownedPhase_congr (same : e.capture.slots.get k = d.capture.slots.get k) : ownedPhase e g k = ownedPhase d g k := by
  rw [ownedPhase, ownedPhase, same]

/-- The slot that a write owns is the first that shows it as its owner. -/
theorem slotOwnedBy_phase (d : Device) (g : ReqTag) : (slotOwnedBy d g).map (fun p => (p.1, p.2.phase)) =
    (indices 16).findSome? fun k => (ownedPhase d g k).map (k, ·) := by
  rw [slotOwnedBy, slotsInUse]
  induction indices 16 with
  | nil => rfl
  | cons k l ih =>
    cases slot : d.capture.slots.get k with
    | none =>
      rw [List.filterMap_cons_none (by rw [slot]; rfl), List.findSome?_cons, ownedPhase_empty slot]
      exact ih
    | some c =>
      rw [List.filterMap_cons_some (by rw [slot]; rfl), List.findSome?_cons, ownedPhase_slot slot, List.find?_cons]
      by_cases owner : c.owner = some g
      · simp [owner]
      · have miss : ((k, c).2.owner == some g) = false := beq_eq_false_iff_ne.mpr owner
        rw [miss, if_neg owner]
        exact ih

theorem slotOwnedBy_phase_congr (same : ∀ k, ownedPhase e g k = ownedPhase d g k) :
    (slotOwnedBy e g).map (fun p => (p.1, p.2.phase)) = (slotOwnedBy d g).map fun p => (p.1, p.2.phase) := by
  rw [slotOwnedBy_phase, slotOwnedBy_phase]
  exact congrArg (fun f => (indices 16).findSome? f) (funext fun k => by rw [same])

/-! ## A write that waits for its turn -/

/-- The write `g` stands as it did in `x`, and can be given no slot from the queue. -/
structure Awaits (x : Device) (g : ReqTag) (e : Device) : Prop where
  entry : e.path.requests.get g = x.path.requests.get g
  phases : ∀ k, ownedPhase e g k = ownedPhase x g k
  unqueued : g ∉ e.capture.queue

variable {T : ReqTag → Prop} {K : SlotNo → Prop}

theorem Awaits.same (awaits : Awaits x g d) (requests : e.path.requests = d.path.requests) (capture : e.capture = d.capture) :
    Awaits x g e where
  entry := requests ▸ awaits.entry
  phases k := (ownedPhase_congr (by rw [capture])).trans (awaits.phases k)
  unqueued := capture ▸ awaits.unqueued

theorem LossStep.awaits (awaits : Awaits x g d) (step : LossStep T K d e) (other : ¬ T g) : Awaits x g e := by
  cases step with
  | @answers t named =>
    have apart : t ≠ g := fun same => other (same ▸ named)
    exact ⟨(respond_others apart ..).trans awaits.entry,
      fun k => (ownedPhase_congr (respond_slots t .retry d k)).trans (awaits.phases k), by
        rw [respond_capture]; exact awaits.unqueued⟩
  | releases => exact awaits.same rfl rfl
  | leaves => exact awaits.same rfl rfl
  | @unlinks j _ =>
    refine ⟨by rw [removeSlotEntry_eq, removeEntries_path]; exact awaits.entry, fun k => ?_, ?_⟩
    · refine Eq.trans ?_ (awaits.phases k)
      rw [ownedPhase, ownedPhase, removeSlotEntry_slots]
      split
      · cases d.capture.slots.get k <;> rfl
      · rfl
    · rw [removeSlotEntry_eq, removeEntries_queue]
      exact awaits.unqueued
  | unplaces => exact awaits.same rfl rfl
  | withdraws => exact awaits.same (by rw [withdraw_path]) (by rw [withdraw_eq])
  | @writes j y _ owned ownerless =>
    refine ⟨awaits.entry, fun k => ?_, awaits.unqueued⟩
    rw [← awaits.phases k]
    by_cases same : j = k
    · subst same
      have after : (d.withSlot j y).capture.slots.get j = y := Table.get_set ..
      have unowned : ownedPhase d g j = none := by
        rw [ownedPhase, Option.bind_eq_none_iff]
        exact fun c slot => if_neg fun owner => other (owned c slot g owner)
      rw [unowned, ownedPhase, after, Option.bind_eq_none_iff]
      exact fun c written => if_neg fun owner => by rw [ownerless c written] at owner; cases owner
    · exact ownedPhase_congr (Table.get_set_of_ne _ same _)
  | @serves j t rest _ free front state =>
    have apart : t ≠ g := fun same => awaits.unqueued (by rw [front, same]; exact List.mem_cons_self)
    have unqueued : g ∉ rest := fun mem => awaits.unqueued (by rw [front]; exact List.mem_cons_of_mem t mem)
    rcases takeSlot_cases state with same | ⟨q, c, fs, ss, u, -, owner, -, served⟩
    · rw [same]
      exact ⟨awaits.entry, awaits.phases, unqueued⟩
    · rw [served]
      refine ⟨(Table.get_set_of_ne _ apart _).trans awaits.entry, fun k => Eq.trans ?_ (awaits.phases k), unqueued⟩
      by_cases same : j = k
      · subst same
        have after : (slotServed (dequeued rest d) t q j c fs ss u).capture.slots.get j = some c := Table.get_set ..
        rw [ownedPhase_empty free, ownedPhase_slot after, owner]
        exact if_neg fun both => apart (Option.some.inj both)
      · exact ownedPhase_congr (Table.get_set_of_ne _ same _)

theorem LossSteps.awaits (awaits : Awaits x g d) (steps : LossSteps T K d e) (other : ¬ T g) : Awaits x g e :=
  steps.keep (P := Awaits x g) awaits fun awaits step => step.awaits awaits other

/-! ## Answers stay, and what is gone was answered -/

theorem LossStep.absent (step : LossStep T K d e) (absent : d.path.requests.get g = none) : e.path.requests.get g = none := by
  obtain ⟨a, answered⟩ := step.answered (.refl d)
  cases entry : e.path.requests.get g with
  | none => rfl
  | some q =>
    obtain ⟨q₀, before, -⟩ := answered.entries g q entry
    rw [absent] at before
    cases before

theorem LossSteps.absent (steps : LossSteps T K d e) (absent : d.path.requests.get g = none) :
    e.path.requests.get g = none :=
  steps.keep (P := fun e => e.path.requests.get g = none) absent fun absent step => step.absent absent

/-- Since `x` the part has answered; each of the entries gone has had RETRY. -/
def Retries (x e : Device) : Prop := ∃ a, e.responses = x.responses ++ a
  ∧ ∀ g, x.path.requests.get g ≠ none → e.path.requests.get g = none → (g, Response.retry) ∈ a

theorem Retries.same (retries : Retries x d) (responses : e.responses = d.responses)
    (entries : ∀ g, e.path.requests.get g = none → d.path.requests.get g = none) : Retries x e := by
  obtain ⟨a, extends_, told⟩ := retries
  exact ⟨a, responses.trans extends_, fun g present gone => told g present (entries g gone)⟩

theorem LossStep.retries (retries : Retries x d) (step : LossStep T K d e) : Retries x e := by
  cases step with
  | @answers t _ =>
    cases entry : d.path.requests.get t with
    | none => rwa [respond_absent _ entry]
    | some q =>
      obtain ⟨a, extends_, told⟩ := retries
      refine ⟨a ++ [(t, .retry)], by rw [respond_responses _ entry, extends_, List.append_assoc], fun g present gone => ?_⟩
      rw [respond_requests] at gone
      by_cases same : t = g
      · subst same
        exact List.mem_append_right a List.mem_cons_self
      · rw [if_neg same] at gone
        exact List.mem_append_left _ (told g present gone)
  | releases => exact retries.same rfl fun _ gone => gone
  | leaves => exact retries.same rfl fun _ gone => gone
  | unlinks =>
    rw [removeSlotEntry_eq, removeEntries_capture]
    exact retries.same rfl fun _ gone => gone
  | unplaces => exact retries.same rfl fun _ gone => gone
  | withdraws =>
    rw [withdraw_eq]
    exact retries.same rfl fun _ gone => gone
  | writes => exact retries.same rfl fun _ gone => gone
  | @serves _ t _ _ _ _ state =>
    rcases takeSlot_cases state with same | ⟨q, c, fs, ss, u, -, -, -, served⟩
    · rw [same]
      exact retries.same rfl fun _ gone => gone
    · rw [served]
      refine retries.same rfl fun g gone => ?_
      by_cases same : t = g
      · subst same
        exact absurd ((Table.get_set ..).symm.trans gone) (by simp)
      · exact (Table.get_set_of_ne _ same _).symm.trans gone

theorem LossSteps.retries (steps : LossSteps T K d e) : Retries d e :=
  steps.keep (P := Retries d) ⟨[], (List.append_nil _).symm, fun _ present gone => absurd gone present⟩
    fun retries step => step.retries retries

/-! ## The writes in their order -/

section
variable {st : StreamNo}

/-- The write of the stream waits for its line, for a slot, or for the slot it has, which is no cancelled one. -/
def HeldBy (st : StreamNo) (d : Device) (g : ReqTag) : Prop := ∃ q, d.path.requests.get g = some q ∧ q.stream = some st
  ∧ (q.state = .waitOrder ∨ q.state = .waitSlot ∨ q.state = .capturing)
  ∧ ∀ k c, slotOwnedBy d g = some (k, c) → c.phase ≠ .cancelled

theorem HeldBy.congr (held : HeldBy st x g) (entry : e.path.requests.get g = x.path.requests.get g)
    (phases : ∀ k, ownedPhase e g k = ownedPhase x g k) : HeldBy st e g := by
  obtain ⟨q, before, stream, state, uncancelled⟩ := held
  refine ⟨q, entry.trans before, stream, state, fun k c owns => ?_⟩
  have same := slotOwnedBy_phase_congr phases
  rw [owns] at same
  cases before : slotOwnedBy x g with
  | none =>
    rw [before] at same
    cases same
  | some p =>
    rw [before] at same
    obtain ⟨-, phase⟩ := Prod.mk.inj (Option.some.inj same)
    rw [phase]
    exact uncancelled p.1 p.2 before

/-- At its turn a held write is answered. -/
theorem loseWrite_held (held : HeldBy st d g) : (loseWrite st d g).path.requests.get g = none := by
  obtain ⟨q, entry, stream, state, uncancelled⟩ := held
  have answered : ∀ e : Device, (respond g .retry e).path.requests.get g = none := fun e => by
    rw [respond_requests, if_pos rfl]
  have ours : isHeldWriteOf st q = true := by
    rcases state with state | state | state <;> simp [isHeldWriteOf, Request.forwarded, stream, state]
  rcases state with state | state | state
  · rw [loseWrite_waitOrder entry ours state]
    exact answered _
  · rw [loseWrite_waitSlot entry ours state]
    exact answered _
  · cases owns : slotOwnedBy d g with
    | none =>
      rw [loseWrite_slotless entry ours state owns]
      exact answered _
    | some p =>
      obtain ⟨k, c⟩ := p
      obtain ⟨slot, owner⟩ := slotOwnedBy_get owns
      have told : (ownerTold c.owner d).path.requests.get g = none := by
        rw [owner]
        exact answered d
      rw [loseWrite_owning entry ours state owns]
      exact (loseSlot_told (T := fun _ => True) (K := fun _ => True) trivial slot (fun _ _ => trivial)
        (uncancelled k c owns)).absent told

/-- Writes that are held, and not to be served, when the tags of `l` are gone through are answered in their order in `l`. -/
theorem loseWrites_answers {l held : List ReqTag} (inside : held.Sublist l) (once : l.Nodup)
    (waits : ∀ g ∈ held, HeldBy st d g ∧ g ∉ d.capture.queue) : ∃ a, (l.foldl (loseWrite st) d).responses = d.responses ++ a
      ∧ (held.map fun g => (g, Response.retry)).Sublist a
      ∧ ∀ g ∈ held, (l.foldl (loseWrite st) d).path.requests.get g = none := by
  induction l generalizing d held with
  | nil =>
    obtain rfl := List.sublist_nil.mp inside
    exact ⟨[], (List.append_nil _).symm, .slnil, fun g mem => absurd mem List.not_mem_nil⟩
  | cons t l ih =>
    obtain ⟨fresh, once⟩ := List.nodup_cons.mp once
    have steps : LossSteps (· = t) (fun _ => True) d (loseWrite st d t) := loseWrite_steps st t d
    have rest_steps : LossSteps (fun _ => True) (fun _ => True) (loseWrite st d t) (l.foldl (loseWrite st) (loseWrite st d t)) :=
      LossSteps.foldl l (fun d t => (loseWrite_steps st t d).mono (fun _ _ => trivial) fun _ _ => trivial) _
    have later : ∀ g, HeldBy st d g ∧ g ∉ d.capture.queue → g ≠ t →
        HeldBy st (loseWrite st d t) g ∧ g ∉ (loseWrite st d t).capture.queue := fun g ⟨held, unqueued⟩ other => by
      have awaits : Awaits d g (loseWrite st d t) := steps.awaits ⟨rfl, fun _ => rfl, unqueued⟩ other
      exact ⟨held.congr awaits.entry awaits.phases, awaits.unqueued⟩
    obtain ⟨b, extends_, told⟩ := steps.retries
    rw [List.foldl_cons]
    cases inside with
    | cons _ inside =>
      obtain ⟨a, answers, ordered, gone⟩ := ih inside once fun g mem =>
        later g (waits g mem) fun same => fresh (same ▸ inside.subset mem)
      exact ⟨b ++ a, by rw [answers, extends_, List.append_assoc], ordered.trans (List.sublist_append_right b a), gone⟩
    | cons_cons _ inside =>
      obtain ⟨a, answers, ordered, gone⟩ := ih inside once fun g mem =>
        later g (waits g (List.mem_cons_of_mem t mem)) fun same => fresh (same ▸ inside.subset mem)
      obtain ⟨held, -⟩ := waits t List.mem_cons_self
      have answered : (loseWrite st d t).path.requests.get t = none := loseWrite_held held
      have present : d.path.requests.get t ≠ none := by
        obtain ⟨q, entry, -⟩ := held
        rw [entry]
        exact Option.some_ne_none q
      refine ⟨b ++ a, by rw [answers, extends_, List.append_assoc], ?_, List.forall_mem_cons.mpr ⟨?_, gone⟩⟩
      · exact (List.singleton_sublist.mpr (told t present answered)).append ordered
      · exact rest_steps.absent answered

end

end

end Sys2Proof.Proofs

/-! PROOF. What the slots of a lost stream become while no write waits to be served (R55, R56). -/
namespace Sys2Proof.Proofs
open Sys2Proof Sys2Proof.Machine

/-- The slot without its link (Table 3-2). -/
def unlinkedSlot (c : Slot) : Slot := { c with linked := false }

/-- The slot since, which may have lost its link. -/
def SlotSince (before after : Option Slot) : Prop := after = before ∨ after = before.map unlinkedSlot

/-- What becomes of a slot whose stream is lost, by whether its capture read is on the port. -/
def lostSlot (issued : Bool) (c : Slot) : Option Slot :=
  match c.phase with
  | .done | .waitingPosition => none
  | .reading => if issued = true then some { c with owner := none, linked := false, phase := .cancelled } else none
  | .writing => if c.linesAnswered = 2 then none else some { c with owner := none, lost := true }
  | .cancelled => some c

/-- No write can be given a slot: a device check is handled, or the slot queue is empty. -/
def Quiet (d : Device) : Prop := d.check.state ≠ .normal ∨ d.capture.queue = []

section
variable {o o' o'' : Option Slot} {c : Slot} {issued : Bool}

theorem SlotSince.refl (o : Option Slot) : SlotSince o o := .inl rfl

theorem SlotSince.trans (first : SlotSince o o') (next : SlotSince o' o'') : SlotSince o o'' := by
  have twice : (o.map unlinkedSlot).map unlinkedSlot = o.map unlinkedSlot := by cases o <;> rfl
  rcases first with rfl | rfl
  · exact next
  · rcases next with rfl | rfl
    · exact .inr rfl
    · exact .inr twice

theorem lostSlot_unlinked (issued : Bool) (c : Slot) : SlotSince (lostSlot issued c) (lostSlot issued (unlinkedSlot c)) := by
  cases phase : c.phase with
  | reading => exact .inl (by simp only [lostSlot, unlinkedSlot, phase])
  | waitingPosition => exact .inl (by simp only [lostSlot, unlinkedSlot, phase])
  | writing =>
    right
    simp only [lostSlot, unlinkedSlot, phase]
    split <;> rfl
  | done => exact .inl (by simp only [lostSlot, unlinkedSlot, phase])
  | cancelled => exact .inr (by simp only [lostSlot, unlinkedSlot, phase, Option.map_some])

theorem SlotSince.lost (since : SlotSince o o') (issued : Bool) : SlotSince (o.bind (lostSlot issued)) (o'.bind (lostSlot issued)) := by
  cases o with
  | none => rcases since with rfl | rfl <;> exact .refl none
  | some c =>
    rcases since with rfl | rfl
    · exact .refl _
    · exact lostSlot_unlinked issued c

theorem lostSlot_again (issued : Bool) (c : Slot) : (lostSlot issued c).bind (lostSlot issued) = lostSlot issued c := by
  cases phase : c.phase with
  | reading => cases issued <;> simp [lostSlot, phase]
  | waitingPosition => simp [lostSlot, phase]
  | writing =>
    by_cases all : c.linesAnswered = 2 <;> simp [lostSlot, phase, all]
  | done => simp [lostSlot, phase]
  | cancelled => simp [lostSlot, phase]

theorem bind_lostSlot_again (issued : Bool) (o : Option Slot) :
    (o.bind (lostSlot issued)).bind (lostSlot issued) = o.bind (lostSlot issued) := by
  cases o with
  | none => rfl
  | some c => exact lostSlot_again issued c

end

section
variable {T : ReqTag → Prop} {K : SlotNo → Prop} {x d e : Device} {k : SlotNo} {c : Slot}

theorem LossStep.quiet (quiet : Quiet d) (step : LossStep T K d e) : Quiet e := by
  refine quiet.imp (fun handled => step.check ▸ handled) fun empty => ?_
  cases step with
  | answers => rwa [respond_capture]
  | releases => exact empty
  | leaves => exact empty
  | unlinks => rwa [removeSlotEntry_eq, removeEntries_queue]
  | unplaces => exact empty
  | withdraws => rwa [withdraw_eq]
  | writes => exact empty
  | serves _ _ front _ =>
    rw [empty] at front
    cases front

theorem LossSteps.quiet (quiet : Quiet d) (steps : LossSteps T K d e) : Quiet e :=
  steps.keep (P := Quiet) quiet fun quiet step => step.quiet quiet

theorem LossSteps.captureIssued (steps : LossSteps T K d e) (k : SlotNo) : captureIssued e k = captureIssued d k :=
  steps.keep (P := fun e => Machine.captureIssued e k = Machine.captureIssued d k) rfl fun same step => by
    rw [← same, Machine.captureIssued, Machine.captureIssued, step.issued]

/-- A step leaves a slot that it does not name, but perhaps for its link. -/
theorem LossStep.slot (step : LossStep T K d e) (other : ¬ K k) : SlotSince (d.capture.slots.get k) (e.capture.slots.get k) := by
  cases step with
  | answers => exact .inl (respond_slots ..)
  | releases => exact .refl _
  | leaves => exact .refl _
  | unlinks =>
    rw [removeSlotEntry_slots]
    split
    · exact .inr rfl
    · exact .refl _
  | unplaces => exact .refl _
  | withdraws => exact .inl (by rw [withdraw_eq])
  | @writes j _ named _ _ => exact .inl (Table.get_set_of_ne _ (fun same => other (by rwa [← same])) _)
  | @serves j _ _ named _ _ state =>
    rcases takeSlot_cases state with same | ⟨q, c, fs, ss, u, -, -, -, served⟩
    · exact .inl (by rw [same]; rfl)
    · exact .inl (by rw [served]; exact Table.get_set_of_ne _ (fun same => other (by rwa [← same])) _)

theorem LossSteps.slot (steps : LossSteps T K d e) (other : ¬ K k) :
    SlotSince (d.capture.slots.get k) (e.capture.slots.get k) :=
  steps.keep (P := fun e => SlotSince (d.capture.slots.get k) (e.capture.slots.get k)) (.refl _) fun since step =>
    since.trans (step.slot other)

/-! ## One slot -/

theorem freeSlot_quiet (quiet : Quiet d) (k : SlotNo) : (freeSlot k d).capture.slots.get k = none := by
  rcases quiet with handled | empty
  · rw [freeSlot_handling handled]
    exact Table.get_set ..
  · rw [freeSlot_queue_empty empty]
    exact Table.get_set ..

theorem cancelSlot_quiet (quiet : Quiet d) (slot : d.capture.slots.get k = some c)
    (unplaced : c.phase = .reading ∨ c.phase = .waitingPosition) :
    (cancelSlot k d).capture.slots.get k = lostSlot (captureIssued d k) c := by
  have told : LossSteps (fun _ => True) (fun _ => True) d (removeSlotEntry k (answerOwner c.owner c.line .retry d)) :=
    ((ownerTold_steps (fun _ _ => trivial) d).trans (answerOwner_told ..)).step (.unlinks trivial)
  rcases unplaced with phase | phase
  · by_cases issued : captureIssued d k = true
    · rw [cancelSlot_issued slot phase issued]
      simp only [lostSlot, phase, issued, if_true]
      exact Table.get_set ..
    · rw [cancelSlot_unissued slot phase issued, freeSlot_quiet ((told.step (.withdraws k)).quiet quiet)]
      simp only [lostSlot, phase, if_neg issued]
  · rw [cancelSlot_waiting slot phase, freeSlot_quiet ((told.step (.unplaces k c.stream)).quiet quiet)]
    simp only [lostSlot, phase]

theorem loseSlot_quiet (quiet : Quiet d) (k : SlotNo) : (loseSlot k d).capture.slots.get k =
    (d.capture.slots.get k).bind (lostSlot (captureIssued d k)) := by
  cases slot : d.capture.slots.get k with
  | none => rw [loseSlot_empty slot, slot]; rfl
  | some c =>
    have told : LossSteps (fun _ => True) (fun _ => True) d (answerOwner c.owner c.line .retry d) :=
      (ownerTold_steps (fun _ _ => trivial) d).trans (answerOwner_told ..)
    rw [Option.bind_some]
    cases phase : c.phase with
    | reading => rw [loseSlot_unplaced slot (.inl phase), cancelSlot_quiet quiet slot (.inl phase)]
    | waitingPosition => rw [loseSlot_unplaced slot (.inr phase), cancelSlot_quiet quiet slot (.inr phase)]
    | writing =>
      rw [loseSlot_writing slot phase, loseWritingSlot]
      simp only [lostSlot, phase]
      split
      · exact freeSlot_quiet (told.quiet quiet) k
      · exact Table.get_set ..
    | done =>
      rw [loseSlot_done slot phase, freeSlot_quiet (told.quiet quiet)]
      simp only [lostSlot, phase]
    | cancelled =>
      rw [loseSlot_cancelled slot phase, slot]
      simp only [lostSlot, phase]

/-! ## The two passes -/

/-- Since `x`, a quiet part, the slot is as it was or as the loss leaves it. -/
structure SlotPassed (x : Device) (k : SlotNo) (e : Device) : Prop where
  quiet : Quiet e
  issued : captureIssued e k = captureIssued x k
  slot : SlotSince (x.capture.slots.get k) (e.capture.slots.get k)
    ∨ SlotSince ((x.capture.slots.get k).bind (lostSlot (captureIssued x k))) (e.capture.slots.get k)

/-- The slot is as the loss leaves it. -/
def SlotLeft (x : Device) (k : SlotNo) (e : Device) : Prop :=
  SlotSince ((x.capture.slots.get k).bind (lostSlot (captureIssued x k))) (e.capture.slots.get k)

theorem SlotPassed.steps (passed : SlotPassed x k d) (steps : LossSteps T K d e) (other : ¬ K k) : SlotPassed x k e where
  quiet := steps.quiet passed.quiet
  issued := (steps.captureIssued k).trans passed.issued
  slot := passed.slot.imp (·.trans (steps.slot other)) (·.trans (steps.slot other))

theorem SlotPassed.loseSlot (passed : SlotPassed x k d) : SlotPassed x k (loseSlot k d) ∧ SlotLeft x k (loseSlot k d) := by
  have steps : LossSteps (fun _ => True) (fun _ => True) d (Machine.loseSlot k d) := loseSlot_steps trivial fun _ _ _ _ => trivial
  have left : SlotLeft x k (Machine.loseSlot k d) := by
    rw [SlotLeft, loseSlot_quiet passed.quiet, passed.issued]
    rcases passed.slot with since | since
    · exact since.lost _
    · exact (congrArg (SlotSince · _) (bind_lostSlot_again ..)).mp (since.lost (Machine.captureIssued x k))
  exact ⟨⟨steps.quiet passed.quiet, (steps.captureIssued k).trans passed.issued, .inr left⟩, left⟩

theorem SlotPassed.loseSlot_any (passed : SlotPassed x k d) (j : SlotNo) : SlotPassed x k (Machine.loseSlot j d) := by
  by_cases same : j = k
  · subst same
    exact passed.loseSlot.1
  · exact passed.steps (loseSlot_steps (T := fun _ => True) (K := (· = j)) rfl fun _ _ _ _ => trivial) (Ne.symm same)

theorem SlotLeft.loseSlot_any (passed : SlotPassed x k d) (left : SlotLeft x k d) (j : SlotNo) :
    SlotLeft x k (Machine.loseSlot j d) := by
  by_cases same : j = k
  · subst same
    exact passed.loseSlot.2
  · exact left.trans ((loseSlot_steps (T := fun _ => True) (K := (· = j)) rfl fun _ _ _ _ => trivial).slot (Ne.symm same))

theorem SlotPassed.loseWrites (passed : SlotPassed x k d) (st : StreamNo) (l : List ReqTag) :
    SlotPassed x k (l.foldl (loseWrite st) d) := by
  induction l generalizing d with
  | nil => exact passed
  | cons t l ih =>
    refine ih ?_
    rcases loseWrite_cases st t d with steps | ⟨j, c, -, same⟩
    · exact passed.steps steps id
    · rw [same]
      exact passed.loseSlot_any j

/-- One slot of the second pass. -/
def loseListed (e : Device) (p : SlotNo × Slot) : Device := if p.2.lost = true then e else loseSlot p.1 e

theorem SlotPassed.loseListed (passed : SlotPassed x k d) (p : SlotNo × Slot) : SlotPassed x k (loseListed d p) := by
  rw [Proofs.loseListed]
  split
  · exact passed
  · exact passed.loseSlot_any p.1

theorem SlotLeft.loseListed (passed : SlotPassed x k d) (left : SlotLeft x k d) (p : SlotNo × Slot) :
    SlotLeft x k (loseListed d p) := by
  rw [Proofs.loseListed]
  split
  · exact left
  · exact left.loseSlot_any passed p.1

theorem foldl_loseListed_left (passed : SlotPassed x k d) (l : List (SlotNo × Slot))
    (reached : SlotLeft x k d ∨ ∃ c, (k, c) ∈ l ∧ c.lost = false) : SlotLeft x k (l.foldl loseListed d) := by
  induction l generalizing d with
  | nil => exact reached.resolve_right fun ⟨_, mem, _⟩ => absurd mem List.not_mem_nil
  | cons p l ih =>
    refine ih (passed.loseListed p) ?_
    rcases reached with left | ⟨c, mem, held⟩
    · exact .inl (left.loseListed passed p)
    · rcases List.mem_cons.mp mem with rfl | mem
      · refine .inl ?_
        rw [loseListed, held, if_neg Bool.false_ne_true]
        exact passed.loseSlot.2
      · exact .inr ⟨c, mem, held⟩

theorem slotsLost_eq (st : StreamNo) (d : Device) :
    slotsLost st d = (slotsOf (writesLost st d) st).foldl loseListed (writesLost st d) := rfl

/-- A slot of the stream whose loss is new is left as the loss leaves it. -/
theorem slotsLost_left {st : StreamNo} (quiet : Quiet (leaveSlotQueue st d)) (slot : d.capture.slots.get k = some c)
    (stream : c.stream = st) (held : c.lost = false) :
    SlotSince (lostSlot (captureIssued d k) c) ((slotsLost st d).capture.slots.get k) := by
  have passed : SlotPassed (leaveSlotQueue st d) k (writesLost st d) :=
    SlotPassed.loseWrites ⟨quiet, rfl, .inl (.refl _)⟩ st (indices 64)
  have left : SlotLeft (leaveSlotQueue st d) k (slotsLost st d) := by
    rw [slotsLost_eq]
    refine foldl_loseListed_left passed _ (passed.slot.symm.imp id fun since => ?_)
    rcases since with same | same
    · exact ⟨c, mem_slotsOf.mpr ⟨same.trans slot, stream⟩, held⟩
    · exact ⟨(unlinkedSlot c), mem_slotsOf.mpr ⟨same.trans (congrArg (Option.map unlinkedSlot) slot), stream⟩, held⟩
  have start : (leaveSlotQueue st d).capture.slots.get k = some c := slot
  rw [SlotLeft, start] at left
  exact left

end

end Sys2Proof.Proofs

/-! PROOF. Stream loss before and after the Capture Unit's part (R14, R77, R78, R116). -/
namespace Sys2Proof.Proofs
open Sys2Proof Sys2Proof.Machine

/-! ## The loss told (R78 steps 1 to 4) -/

/-- The STREAM_LOST report of a stream. -/
def lostReport (st : StreamNo) (cause : Cause) (x : Stream) : Report := {
  kind := .streamLost, status := .failed, stream := st.1, epoch := x.epoch.getD 0
  sequence := x.committed.getD 0, address := x.anchorAddress, first := x.marks.length, second := cause.code }

/-- The COMMAND_DONE of an extension that fails. -/
def extensionFailed (st : StreamNo) (cause : Cause) (e : Extension) : Report :=
  { kind := .commandDone, tag := e.tag, status := .failed, stream := st.1, address := e.descriptor, second := cause.code }

/-- The COMMAND_DONEs of what is in progress, the operation's first. -/
def failedReports (st : StreamNo) (x : Stream) (g : Engine) (cause : Cause) (sequence address : Nat) : List Report :=
  (x.operation.map fun o => { failedDone g o cause sequence address with stream := st.1 }).toList
    ++ (x.extension.map (extensionFailed st cause)).toList

/-- The stream's own record as the loss begins. -/
def lossRecord (cause : Cause) (broken : Bool) (x : Stream) : Stream := { x with
  state := if broken then .broken else .faulted, lossCause := some cause, stallStart := none, marks := []
  pendingMark := none }

/-- The part has queued the reports `rs`, and else has changed no more than its merged summary and its command record. -/
def Told (rs : List Report) (d e : Device) : Prop := ∃ m c, e = { d with
  report := { d.report with queue := d.report.queue ++ rs, summary := m }, command := c }

section
variable {st : StreamNo} {d e f : Device} {rs rs' : List Report}

theorem Told.nothing (d : Device) : Told [] d d := ⟨d.report.summary, d.command, by simp⟩

theorem Told.trans (first : Told rs d e) (next : Told rs' e f) : Told (rs ++ rs') d f := by
  obtain ⟨m, c, rfl⟩ := first
  obtain ⟨m', c', rfl⟩ := next
  exact ⟨m', c', by simp⟩

theorem commandDone_told (r : Report) (d : Device) : Told [{ r with kind := .commandDone }] d (commandDone r d) :=
  ⟨d.report.summary, _, commandDone_eq r d⟩

/-- STREAM_LOST is an asynchronous report: it is queued unless the queue is crowded (R158). -/
theorem lostReport_told (cause : Cause) (x : Stream) (d : Device) :
    Told (if d.report.queue.length < 16 then [lostReport st cause x] else []) d (pushReport (lostReport st cause x) d) := by
  have pushed : pushReport (lostReport st cause x) d = d.withReport fun u =>
      if u.queue.length < 16 then { u with queue := u.queue ++ [lostReport st cause x] }
      else { u with summary := u.summary.add 5 st.1 } := rfl
  rw [pushed, Device.withReport]
  by_cases room : d.report.queue.length < 16
  · exact ⟨d.report.summary, d.command, by rw [if_pos room, if_pos room]⟩
  · exact ⟨d.report.summary.add 5 st.1, d.command, by rw [if_neg room, if_neg room, List.append_nil]⟩

theorem failedDone_commandDone (g : Engine) (o : Operation) (cause : Cause) (sequence address : Nat) :
    { failedDone g o cause sequence address with stream := st.1, kind := .commandDone } =
      { failedDone g o cause sequence address with stream := st.1 } := by
  cases kind : o.kind <;> simp only [failedDone, kind]

theorem failOperations_told (st : StreamNo) (x : Stream) (g : Engine) (cause : Cause) (sequence address : Nat) (d : Device) :
    Told (failedReports st x g cause sequence address) (d.withStream st fun x => { x with operation := none, extension := none })
      (failOperations st x g cause sequence address d) := by
  have done : ∀ e : Device, Told (x.operation.map fun o => { failedDone g o cause sequence address with stream := st.1 }).toList e
      (match x.operation with
        | some o => streamDone st (failedDone g o cause sequence address) e
        | none => e) := fun e => by
    cases x.operation with
    | none => exact .nothing e
    | some o =>
      rw [Option.map_some, ← failedDone_commandDone]
      exact commandDone_told _ e
  have extended : ∀ e : Device, Told (x.extension.map (extensionFailed st cause)).toList e
      (match x.extension with
        | some o => streamDone st { kind := .commandDone, tag := o.tag, status := .failed, address := o.descriptor,
                                    second := cause.code } e
        | none => e) := fun e => by
    cases x.extension with
    | none => exact .nothing e
    | some o => exact commandDone_told _ e
  exact (done _).trans (extended _)

/-- The part once the loss is told: the stream's record, its MARK record's requests without owner, the reports. -/
def lossTold (st : StreamNo) (cause : Cause) (broken : Bool) (sequence address : Nat) (d : Device) : Device :=
  failOperations st (d.streams.get st) d.engine cause sequence address
    (pushReport (lostReport st cause (d.streams.get st))
      (discardLater (isMarkJobOf st) (d.withStream st (lossRecord cause broken))))

/-- The reports of the loss. -/
def lossReports (st : StreamNo) (cause : Cause) (sequence address : Nat) (d : Device) : List Report :=
  (if d.report.queue.length < 16 then [lostReport st cause (d.streams.get st)] else [])
    ++ failedReports st (d.streams.get st) d.engine cause sequence address

theorem Told.withStream (told : Told rs d e) (st : StreamNo) (f : Stream → Stream) :
    Told rs (d.withStream st f) (e.withStream st f) := by
  obtain ⟨m, c, rfl⟩ := told
  exact ⟨m, c, rfl⟩

theorem lossTold_told (st : StreamNo) (cause : Cause) (broken : Bool) (sequence address : Nat) (d : Device) :
    Told (lossReports st cause sequence address d)
      { discardLaterWith (isMarkJobOf st) d (discardedAsker (isMarkJobOf st)) with
        streams := d.streams.set st { lossRecord cause broken (d.streams.get st) with operation := none, extension := none } }
      (lossTold st cause broken sequence address d) := by
  have begun : (discardLater (isMarkJobOf st) (d.withStream st (lossRecord cause broken))).withStream st
      (fun x => { x with operation := none, extension := none }) =
      { discardLaterWith (isMarkJobOf st) d (discardedAsker (isMarkJobOf st)) with
        streams := d.streams.set st { lossRecord cause broken (d.streams.get st) with operation := none, extension := none } } := by
    rw [discardLater_eq]
    simp only [discardLaterWith, Device.withStream, Table.get_set, Table.set_set]
  rw [← begun]
  exact ((lostReport_told cause (d.streams.get st)
    (discardLater (isMarkJobOf st) (d.withStream st (lossRecord cause broken)))).withStream st _).trans
      (failOperations_told ..)

/-! ## Degradation (R14) -/

/-- A region of a lost stream: out of JOURNAL, in HOLD. -/
def degradedRegion (e : Region) : Region :=
  if e.effective = .journal then { e with effective := .hold, degrading := true } else e

theorem degradedRegion_again (e : Region) : degradedRegion (degradedRegion e) = degradedRegion e := by
  by_cases journal : e.effective = .journal <;> simp [degradedRegion, journal]

theorem degradeRegion_eq (d : Device) (r : RegionNo) : degradeRegion d r =
    if (d.regions.get r).effective = .journal then
      removeEntries (fun e => e.region == r) { d with regions := d.regions.set r (degradedRegion (d.regions.get r)) }
    else d := by
  rw [degradeRegion]
  split
  next journal => rw [leaveJournal, if_pos rfl, degradedRegion, if_pos journal, Device.withRegion]
  next => rfl

theorem degradeRegion_regions (d : Device) (r i : RegionNo) : (degradeRegion d r).regions.get i =
    if i = r then degradedRegion (d.regions.get i) else d.regions.get i := by
  rw [degradeRegion_eq]
  by_cases same : i = r
  · subst same
    rw [if_pos rfl]
    split
    · rw [removeEntries_capture]
      exact Table.get_set ..
    next other => rw [degradedRegion, if_neg other]
  · rw [if_neg same]
    split
    · rw [removeEntries_capture]
      exact Table.get_set_of_ne _ (Ne.symm same) _
    · rfl

theorem foldl_degradeRegion_regions (l : List RegionNo) (d : Device) (i : RegionNo) :
    (l.foldl degradeRegion d).regions.get i = if i ∈ l then degradedRegion (d.regions.get i) else d.regions.get i := by
  induction l generalizing d with
  | nil => rfl
  | cons r l ih =>
    rw [List.foldl_cons, ih, degradeRegion_regions]
    by_cases same : i = r
    · simp only [same, if_true, List.mem_cons_self, degradedRegion_again, ite_self]
    · simp only [same, if_false, List.mem_cons, false_or]

theorem degradeRegions_regions (st : StreamNo) (d : Device) (i : RegionNo) : (degradeRegions st d).regions.get i =
    if (d.regions.get i).stream = some st then degradedRegion (d.regions.get i) else d.regions.get i := by
  rw [degradeRegions, foldl_degradeRegion_regions]
  exact if_congr mem_boundRegions rfl rfl

/-- What every member of a fold keeps, the fold keeps. -/
theorem foldl_keeps {α : Type} {P : Device → Prop} {f : Device → α → Device} {l : List α}
    (each : ∀ d, ∀ a ∈ l, P d → P (f d a)) (start : P d) : P (l.foldl f d) := by
  induction l generalizing d with
  | nil => exact start
  | cons a l ih =>
    exact ih (fun d b mem => each d b (List.mem_cons_of_mem a mem)) (each d a List.mem_cons_self start)

theorem degradeRegions_slots (st : StreamNo) (d : Device) (k : SlotNo) :
    SlotSince (d.capture.slots.get k) ((degradeRegions st d).capture.slots.get k) := by
  refine foldl_keeps (P := fun e => SlotSince (d.capture.slots.get k) (e.capture.slots.get k)) (fun e r _ since => ?_) (.refl _)
  rw [degradeRegion_eq]
  split
  · refine since.trans ?_
    rw [removeEntries_slots]
    split
    · exact .inr rfl
    · exact .refl _
  · exact since

theorem degradeRegions_queue (st : StreamNo) (d : Device) : (degradeRegions st d).capture.queue = d.capture.queue := by
  refine foldl_keeps (P := fun e => e.capture.queue = d.capture.queue) (fun e r _ same => ?_) rfl
  rw [degradeRegion_eq]
  split
  · rw [removeEntries_queue]
    exact same
  · exact same

/-- Entries of the lost stream's regions alone are removed. -/
theorem degradeRegions_filter {f : FilterEntry} (mem : f ∈ d.capture.filter) (other : (d.regions.get f.region).stream ≠ some st) :
    f ∈ (degradeRegions st d).capture.filter := by
  refine foldl_keeps (P := fun e => f ∈ e.capture.filter) (fun e r bound mem => ?_) mem
  rw [degradeRegion_eq]
  split
  · rw [removeEntries_filter]
    have apart : (f.region == r) = false := beq_eq_false_iff_ne.mpr fun same => other (same ▸ mem_boundRegions.mp bound)
    exact List.mem_filter.mpr ⟨mem, by rw [apart]; rfl⟩
  · exact mem

/-! ## What the loss abandons (R78 step 6, R116) -/

/-- No request of the part's own that `p` names waits for a line. -/
def Unasked (p : Job → Bool) (d : Device) : Prop := ∀ l ∈ d.path.locks, ∀ r, Asker.own r ∈ l.queue → p r.job = false

theorem Unasked.back {p q : Job → Bool} (unasked : Unasked p d) (kept : AskersKept q d e) : Unasked p e := by
  intro l mem r waits
  obtain ⟨m, mem, waits⟩ := kept.back l mem r waits
  exact unasked m mem r waits

theorem withdraw_unasked (p : Job → Bool) (d : Device) : Unasked p (withdraw p d) := by
  have left : Unasked p (leaveQueues p (d.withArbiter fun a => { a with waiting := a.waiting.filter fun r => !p r.job })) := by
    intro l mem r waits
    obtain ⟨l', -, rfl⟩ := List.mem_map.mp (List.mem_of_mem_filter mem)
    simpa using (List.mem_filter.mp waits).2
  exact left.back (foldl_releaseLine_askers (p := p) _ _)

theorem abandon_unasked (p : Job → Bool) (d : Device) : Unasked p (abandon p d) := withdraw_unasked p d

theorem abandon_askers (p : Job → Bool) (d : Device) : AskersKept p d (abandon p d) :=
  (withdraw_askers p d).trans (.of_locks rfl)

/-- The part once the chain's requests are abandoned and the invalidation is offered. -/
def invalidationOffered (st : StreamNo) (d : Device) : Device :=
  ((abandon (isChainJobOf st) d).withStream st fun x => { x with
    next := .absent, extensionLink := none, entering := false, freed := []
    anchorOutstanding := x.anchorOutstanding.map fun w => { w with occasions := w.occasions.filter (· == .check) } }).withStream
    st fun x => { freezeInvalidation (.loss (x.epoch.getD 0)) x with invalidation := .waiting }

theorem loseStream_eq (st : StreamNo) (cause : Cause) (broken : Bool) (sequence address : Nat) (d : Device) :
    loseStream st cause broken sequence address d = engineFails st (invalidationOffered st
      (loseCaptures st (degradeRegions st (lossTold st cause broken sequence address d)))) := rfl

/-- The requests abandoned are gone from queues and classes, discarded on the port. -/
structure Dropped (p : Job → Bool) (d e : Device) : Prop where
  waiting : e.arbiter.waiting = d.arbiter.waiting.filter fun r => !p r.job
  issued : e.arbiter.issued = d.arbiter.issued.map fun i => { i with request := discarded p i.request }
  askers : AskersKept p d e
  unasked : Unasked p e

theorem abandon_dropped (p : Job → Bool) (d : Device) : Dropped p d (abandon p d) :=
  ⟨by rw [abandon_arbiter], by rw [abandon_arbiter], abandon_askers p d, abandon_unasked p d⟩

theorem Dropped.of_same {p : Job → Bool} {d' e' : Device} (dropped : Dropped p d e) (arbiter : d'.arbiter = d.arbiter)
    (locks : d'.path.locks = d.path.locks) (arbiter' : e'.arbiter = e.arbiter) (locks' : e'.path.locks = e.path.locks) :
    Dropped p d' e' where
  waiting := by rw [arbiter, arbiter', dropped.waiting]
  issued := by rw [arbiter, arbiter', dropped.issued]
  askers := (AskersKept.of_locks locks.symm).trans (dropped.askers.trans (.of_locks locks'))
  unasked := by rw [Unasked, locks']; exact dropped.unasked

theorem discarded_discarded {p q : Job → Bool} (apart : ∀ j, p j = true → q j.ownerless = false) (r : PortRequest) :
    discarded q (discarded p r) = discarded (fun j => p j || q j) r := by
  by_cases first : p r.job = true
  · simp [discarded, first, apart]
  · simp [discarded, first]

/-- Two abandonments, the second of requests that the first does not make. -/
theorem Dropped.trans {p q : Job → Bool} (first : Dropped p d e) (next : Dropped q e f)
    (apart : ∀ j, p j = true → q j.ownerless = false) : Dropped (fun j => p j || q j) d f where
  waiting := by
    rw [next.waiting, first.waiting, List.filter_filter]
    exact List.filter_congr fun r _ => by rw [Bool.not_or, Bool.and_comm]
  issued := by
    rw [next.issued, first.issued, List.map_map]
    exact List.map_congr_left fun i _ => congrArg (fun r => { i with request := r }) (discarded_discarded apart i.request)
  askers := (first.askers.mono fun j named => by rw [named, Bool.true_or]).trans
    (next.askers.mono fun j named => by rw [named, Bool.or_true])
  unasked l mem r waits := Bool.or_eq_false_iff.mpr
    ⟨first.unasked.back next.askers l mem r waits, next.unasked l mem r waits⟩

theorem Dropped.nothing (d : Device) : Dropped (fun _ => false) d d where
  waiting := (List.filter_true _).symm
  issued := (List.map_id' _).symm
  askers := .refl d
  unasked _ _ _ _ := rfl

theorem Dropped.congr {p q : Job → Bool} (dropped : Dropped p d e) (same : p = q) : Dropped q d e := same ▸ dropped

/-- The requests that the loss abandons: those of the stream's chain, and the engine's if the engine serves the stream. -/
def lossDrops (st : StreamNo) (g : Engine) (j : Job) : Bool := isChainJobOf st j || (g.owner == some st && isEngineJob j)

/-- The stream's own record once its invalidation waits to be written. -/
def offeredRecord (x : Stream) : Stream := { freezeInvalidation (.loss (x.epoch.getD 0)) { x with
    next := .absent, extensionLink := none, entering := false, freed := []
    anchorOutstanding := x.anchorOutstanding.map fun w => { w with occasions := w.occasions.filter (· == .check) } } with
  invalidation := .waiting }

theorem invalidationOffered_eq (st : StreamNo) (d : Device) : invalidationOffered st d = { abandon (isChainJobOf st) d with
    streams := d.streams.set st (offeredRecord (d.streams.get st)) } := by
  have streams : (abandon (isChainJobOf st) d).streams = d.streams := abandon_streams ..
  rw [invalidationOffered, Device.withStream, Device.withStream]
  dsimp only
  rw [Table.get_set, Table.set_set, streams]
  rfl

theorem engineFails_owner (owner : d.engine.owner = some st) : engineFails st d =
    { abandon isEngineJob (dropResume st d) with engine := { Engine.cold with claims := d.engine.claims } } := by
  have engine : (abandon isEngineJob (dropResume st d)).engine = d.engine := by rw [abandon_eq, dropResume_eq]
  rw [engineFails, if_pos owner, Device.withEngine, engine]

theorem engineFails_other (other : d.engine.owner ≠ some st) : engineFails st d = d := if_neg other

/-- What the end of the loss changes, but for requests of the part's own. -/
theorem lossEnded_eq (st : StreamNo) (d : Device) : engineFails st (invalidationOffered st d) = { d with
    path := { d.path with locks := (engineFails st (invalidationOffered st d)).path.locks }
    arbiter := (engineFails st (invalidationOffered st d)).arbiter
    streams := d.streams.set st (offeredRecord (d.streams.get st))
    regions := if d.engine.owner = some st
      then d.regions.map fun e => if e.stream = some st then { e with resume := none } else e else d.regions
    engine := if d.engine.owner = some st then { Engine.cold with claims := d.engine.claims } else d.engine } := by
  have offered : (invalidationOffered st d).engine = d.engine := by rw [invalidationOffered_eq, abandon_eq]
  by_cases owner : d.engine.owner = some st
  · rw [if_pos owner, if_pos owner, engineFails_owner (offered ▸ owner), abandon_eq, dropResume_regions, invalidationOffered_eq,
      abandon_eq]
  · rw [if_neg owner, if_neg owner, engineFails_other (offered ▸ owner), invalidationOffered_eq, abandon_eq]

theorem ownerless_not_engine (j : Job) : isEngineJob j.ownerless = false := by cases j <;> rfl

theorem lossEnded_dropped (st : StreamNo) (d : Device) :
    Dropped (lossDrops st d.engine) d (engineFails st (invalidationOffered st d)) := by
  have offered : (invalidationOffered st d).engine = d.engine := by rw [invalidationOffered_eq, abandon_eq]
  have chain : Dropped (isChainJobOf st) d (invalidationOffered st d) := by
    rw [invalidationOffered_eq]
    exact (abandon_dropped (isChainJobOf st) d).of_same rfl rfl rfl rfl
  by_cases owner : d.engine.owner = some st
  · rw [engineFails_owner (offered ▸ owner)]
    have walk : Dropped isEngineJob (invalidationOffered st d)
        { abandon isEngineJob (dropResume st (invalidationOffered st d)) with
          engine := { Engine.cold with claims := (invalidationOffered st d).engine.claims } } := by
      refine (abandon_dropped isEngineJob (dropResume st (invalidationOffered st d))).of_same ?_ ?_ rfl rfl <;> rw [dropResume_eq]
    refine (chain.trans walk fun j _ => ownerless_not_engine j).congr (funext fun j => ?_)
    rw [lossDrops, owner, beq_self_eq_true, Bool.true_and]
  · rw [engineFails_other (offered ▸ owner)]
    refine chain.congr (funext fun j => ?_)
    rw [lossDrops, beq_eq_false_iff_ne.mpr owner, Bool.false_and, Bool.or_false]

end

end Sys2Proof.Proofs

/-! PROOF. Stream loss as a whole, and the stall limit (R77, R78). Statement `Obligations.StallLimitExpires`. -/
namespace Sys2Proof.Proofs
open Sys2Proof Sys2Proof.Machine

/-! ## The Capture Unit's part, from the steps that it is made of -/

section
variable {st : StreamNo} {d : Device}

/-- What the last step writes: the stream's entries leave the filter, which is saturated for it no more. -/
def entriesLost (st : StreamNo) (e : Device) : Device := { e with
  capture := (removeStreamEntries st e).capture
  streams := e.streams.set st { e.streams.get st with saturated := false } }

theorem entriesLost_eq (st : StreamNo) (e : Device) :
    (removeStreamEntries st e).withStream st (fun x => { x with saturated := false }) = entriesLost st e := by
  rw [removeStreamEntries, removeEntries_capture, entriesLost, removeStreamEntries]
  rfl

/-- The two passes over the writes and the slots, and the last step. -/
theorem loseCaptures_run (st : StreamNo) (d : Device) : ∃ e, LossSteps (fun _ => True) (fun _ => True) (leaveSlotQueue st d) e
    ∧ e = slotsLost st d ∧ loseCaptures st d = entriesLost st e :=
  ⟨slotsLost st d, (writesLost_steps st d).trans (slotsLost_steps st d), rfl,
    (loseCaptures_eq st d).trans (entriesLost_eq st (slotsLost st d))⟩

theorem loseCaptures_stream (st : StreamNo) (d : Device) : ∃ p, (loseCaptures st d).streams.get st =
    { d.streams.get st with positions := p, saturated := false } := by
  obtain ⟨e, -, -, written⟩ := loseCaptures_run st d
  have kept := (loseCaptures_kept (.refl d) st).streams st
  rw [written] at kept ⊢
  have clear : (entriesLost st e).streams.get st = { e.streams.get st with saturated := false } := Table.get_set ..
  rw [clear] at kept ⊢
  exact ⟨(e.streams.get st).positions,
    congrArg (fun x : Stream => { x with positions := (e.streams.get st).positions, saturated := false }) kept⟩

theorem loseCaptures_region (st : StreamNo) (d : Device) (r : RegionNo) : ∃ n, (loseCaptures st d).regions.get r =
    { d.regions.get r with admitted := n } := by
  have kept := (loseCaptures_kept (.refl d) st).regions r
  generalize loseCaptures st d = e at kept ⊢
  exact ⟨(e.regions.get r).admitted, congrArg (fun x : Region => { x with admitted := (e.regions.get r).admitted }) kept⟩

theorem loseCaptures_issued (st : StreamNo) (d : Device) : (loseCaptures st d).arbiter.issued = d.arbiter.issued := by
  obtain ⟨e, run, -, written⟩ := loseCaptures_run st d
  rw [written]
  exact run.keep (P := fun e => e.arbiter.issued = d.arbiter.issued) rfl fun same step => step.issued.trans same

theorem loseCaptures_waiting (st : StreamNo) (d : Device) :
    (loseCaptures st d).arbiter.waiting.filter (fun r => !Job.isCapture r.job) =
      d.arbiter.waiting.filter fun r => !Job.isCapture r.job := by
  obtain ⟨e, run, -, written⟩ := loseCaptures_run st d
  rw [written]
  exact run.keep (P := fun e => e.arbiter.waiting.filter (fun r => !Job.isCapture r.job) =
    d.arbiter.waiting.filter fun r => !Job.isCapture r.job) rfl fun same step => step.waiting.trans same

theorem loseCaptures_askers (st : StreamNo) (d : Device) : AskersKept Job.isCapture d (loseCaptures st d) := by
  obtain ⟨e, run, -, written⟩ := loseCaptures_run st d
  have kept : AskersKept Job.isCapture d e :=
    run.keep (P := AskersKept Job.isCapture d) (.of_locks rfl) fun kept step => kept.trans step.askers
  rw [written]
  exact kept.trans (.of_locks rfl)

theorem loseCaptures_answered (st : StreamNo) (d : Device) : ∃ a, AnsweredBy d a (loseCaptures st d) := by
  obtain ⟨e, run, -, written⟩ := loseCaptures_run st d
  obtain ⟨a, answered⟩ : ∃ a, AnsweredBy d a e :=
    run.keep (P := fun e => ∃ a, AnsweredBy d a e) ⟨[], (AnsweredBy.refl d).same rfl rfl rfl⟩
      fun ⟨_, answered⟩ step => step.answered answered
  rw [written]
  exact ⟨a, answered.same rfl rfl rfl⟩

/-- The filter holds no entry of the stream's regions, and of the others' its CAPTURED entries. -/
theorem loseCaptures_filter (st : StreamNo) (d : Device) :
    (∀ f ∈ (loseCaptures st d).capture.filter, (d.regions.get f.region).stream ≠ some st)
    ∧ ∀ f ∈ d.capture.filter, (d.regions.get f.region).stream ≠ some st → f.state = .captured →
      f ∈ (loseCaptures st d).capture.filter := by
  have region := loseCaptures_region st d
  obtain ⟨e, run, -, written⟩ := loseCaptures_run st d
  rw [written] at region ⊢
  have ofStream : ∀ f, FilterEntry.ofStream e st f = true ↔ (d.regions.get f.region).stream = some st := fun f => by
    obtain ⟨n, same⟩ := region f.region
    have whole : e.regions.get f.region = { d.regions.get f.region with admitted := n } := same
    have stream : (e.regions.get f.region).stream = (d.regions.get f.region).stream := by rw [whole]
    rw [FilterEntry.ofStream, stream, beq_iff_eq]
  refine ⟨fun f mem bound => ?_, fun f mem other captured => ?_⟩
  · have left : (!FilterEntry.ofStream e st f) = true := (List.mem_filter.mp mem).2
    rw [(ofStream f).mpr bound] at left
    cases left
  · have stays : f ∈ e.capture.filter :=
      run.keep (P := fun e => f ∈ e.capture.filter) mem fun mem step => step.captured captured mem
    refine List.mem_filter.mpr ⟨stays, ?_⟩
    rw [Bool.eq_false_iff.mpr (mt (ofStream f).mp other)]
    rfl

theorem loseCaptures_slot {k : SlotNo} {c : Slot} (quiet : Quiet (leaveSlotQueue st d))
    (slot : d.capture.slots.get k = some c) (stream : c.stream = st) (held : c.lost = false) :
    SlotSince (lostSlot (captureIssued d k) c) ((loseCaptures st d).capture.slots.get k) := by
  have left := slotsLost_left quiet slot stream held
  obtain ⟨e, -, same, written⟩ := loseCaptures_run st d
  rw [← same] at left
  rw [written]
  refine left.trans ?_
  show SlotSince _ ((removeStreamEntries st e).capture.slots.get k)
  rw [removeStreamEntries, removeEntries_slots]
  split
  · exact .inr rfl
  · exact .refl _

theorem indices_sorted (n : Nat) : (indices n).SortedLT := List.sortedLT_finRange n

theorem sublist_indices {n : Nat} {l : List (Fin n)} (ascending : l.Pairwise (· < ·)) : l.Sublist (indices n) := by
  have sorted : l.SortedLT := ascending.sortedLT
  exact List.sublist_of_subperm_of_sortedLE (sorted.nodup.subperm fun i _ => List.mem_finRange i) sorted.sortedLE
    (indices_sorted n).sortedLE

theorem writesLost_eq (st : StreamNo) (d : Device) :
    writesLost st d = (indices 64).foldl (loseWrite st) (leaveSlotQueue st d) := rfl

/-- The slots' pass answers after the writes' pass. -/
theorem slotsLost_held {held : List ReqTag} (ascending : held.Pairwise (· < ·)) (waits : ∀ g ∈ held, HeldBy st d g) :
    ∃ a, (slotsLost st d).responses = d.responses ++ a ∧ (held.map fun g => (g, Response.retry)).Sublist a
      ∧ ∀ g ∈ held, (slotsLost st d).path.requests.get g = none := by
  have unqueued : ∀ g ∈ held, HeldBy st (leaveSlotQueue st d) g ∧ g ∉ (leaveSlotQueue st d).capture.queue := by
    intro g mem
    refine ⟨waits g mem, fun queued => ?_⟩
    obtain ⟨q, entry, stream, -⟩ := waits g mem
    have stays := (List.mem_filter.mp queued).2
    simp [entry, stream] at stays
  obtain ⟨a, answers, ordered, gone⟩ :=
    loseWrites_answers (sublist_indices ascending) (indices_sorted 64).nodup unqueued
  rw [← writesLost_eq] at answers gone
  obtain ⟨b, extends_, -⟩ := (slotsLost_steps st d).retries
  refine ⟨a ++ b, ?_, ordered.trans (List.sublist_append_left a b), fun g mem => (slotsLost_steps st d).absent (gone g mem)⟩
  rw [extends_, answers, ← List.append_assoc]
  rfl

theorem loseCaptures_held {held : List ReqTag} (ascending : held.Pairwise (· < ·)) (waits : ∀ g ∈ held, HeldBy st d g) :
    ∃ a, (loseCaptures st d).responses = d.responses ++ a ∧ (held.map fun g => (g, Response.retry)).Sublist a
      ∧ ∀ g ∈ held, (loseCaptures st d).path.requests.get g = none := by
  obtain ⟨a, answers, ordered, gone⟩ := slotsLost_held ascending waits
  obtain ⟨e, -, same, written⟩ := loseCaptures_run st d
  rw [← same] at answers gone
  rw [written]
  exact ⟨a, answers, ordered, gone⟩

end

end Sys2Proof.Proofs

/-! PROOF. Stream loss as a whole, and the stall limit (R77, R78). Statement `Obligations.StallLimitExpires`. -/
namespace Sys2Proof.Proofs
open Sys2Proof Sys2Proof.Machine

/-! ## The part that the Capture Unit finds -/

/-- What the part `f` has of `d` once a loss is told and the stream's regions are degraded. -/
structure Degraded (st : StreamNo) (cause : Cause) (broken : Bool) (sequence address : Nat) (d f : Device) : Prop where
  stream : f.streams.get st = { lossRecord cause broken (d.streams.get st) with operation := none, extension := none }
  reports : f.report.queue = d.report.queue ++ lossReports st cause sequence address d
  engine : f.engine = d.engine
  check : f.check = d.check
  responses : f.responses = d.responses
  requests : f.path.requests = d.path.requests
  locks : f.path.locks =
    d.path.locks.map fun l => { l with queue := l.queue.map (discardedAsker (isMarkJobOf st)) }
  waiting : f.arbiter.waiting = d.arbiter.waiting.map (discarded (isMarkJobOf st))
  issued : f.arbiter.issued = d.arbiter.issued.map fun i => { i with request := discarded (isMarkJobOf st) i.request }
  regions : ∀ r, f.regions.get r =
    if (d.regions.get r).stream = some st then degradedRegion (d.regions.get r) else d.regions.get r
  queue : f.capture.queue = d.capture.queue
  slots : ∀ k, SlotSince (d.capture.slots.get k) (f.capture.slots.get k)
  filter : ∀ e ∈ d.capture.filter, (d.regions.get e.region).stream ≠ some st → e ∈ f.capture.filter

theorem degraded_lossTold (st : StreamNo) (cause : Cause) (broken : Bool) (sequence address : Nat) (d : Device) :
    Degraded st cause broken sequence address d (degradeRegions st (lossTold st cause broken sequence address d)) := by
  obtain ⟨m, c, told⟩ := lossTold_told st cause broken sequence address d
  have eq := degradeRegions_eq st (lossTold st cause broken sequence address d)
  refine ⟨?_, by rw [eq, told]; rfl, by rw [eq, told]; rfl, by rw [eq, told]; rfl, by rw [eq, told]; rfl,
    by rw [eq, told]; rfl, by rw [eq, told]; rfl, by rw [eq, told]; rfl, by rw [eq, told]; rfl, fun r => ?_, ?_, fun k => ?_,
    fun e mem other => ?_⟩
  · rw [eq, told]
    exact Table.get_set ..
  · rw [degradeRegions_regions, told]
    rfl
  · rw [degradeRegions_queue, told]
    rfl
  · have since := degradeRegions_slots st (lossTold st cause broken sequence address d) k
    rwa [told] at since ⊢
  · exact degradeRegions_filter (by rw [told]; exact mem) (by rw [told]; exact other)

/-! ## Requests of the part's own, judged before and after their owner is gone -/

section
variable {st : StreamNo} {g : Engine} {r : PortRequest}

theorem isMarkJobOf_ownerless (j : Job) : isMarkJobOf st j.ownerless = false := by cases j <;> rfl

theorem discarded_unmarked (r : PortRequest) : isMarkJobOf st (discarded (isMarkJobOf st) r).job = false := by
  by_cases mark : isMarkJobOf st r.job = true
  · rw [discarded, if_pos mark]
    exact isMarkJobOf_ownerless r.job
  · rw [discarded, if_neg mark]
    exact Bool.eq_false_iff.mpr mark

theorem mark_exclusive {j : Job} (mark : isMarkJobOf st j = true) : Job.isCapture j = false ∧ lossDrops st g j = false := by
  cases j with
  | markRecord => exact ⟨rfl, by simp [lossDrops, isChainJobOf, isEngineJob]⟩
  | _ => cases mark

theorem ownerless_exclusive (j : Job) : Job.isCapture j.ownerless = false ∧ lossDrops st g j.ownerless = false := by
  cases j <;> exact ⟨rfl, by simp [lossDrops, isChainJobOf, isEngineJob, Job.ownerless]⟩

/-- The loss of a MARK record's owner decides nothing else about a request. -/
theorem discarded_mark_same (r : PortRequest) :
    Job.isCapture (discarded (isMarkJobOf st) r).job = Job.isCapture r.job
      ∧ lossDrops st g (discarded (isMarkJobOf st) r).job = lossDrops st g r.job := by
  by_cases mark : isMarkJobOf st r.job = true
  · rw [discarded, if_pos mark]
    obtain ⟨capture, drops⟩ := mark_exclusive (g := g) mark
    obtain ⟨capture', drops'⟩ := ownerless_exclusive (st := st) (g := g) r.job
    exact ⟨capture'.trans capture.symm, drops'.trans drops.symm⟩
  · rw [discarded, if_neg mark]
    exact ⟨rfl, rfl⟩

theorem ownerless_of_drops {j : Job} (drops : lossDrops st g j = true) : j.ownerless = .discard j.portClass := by
  cases j with
  | headLine | lateHeadLine => simp [lossDrops, isChainJobOf, isEngineJob] at drops
  | _ => rfl

/-- What an issued request becomes. -/
def lossDiscarded (st : StreamNo) (g : Engine) (r : PortRequest) : PortRequest :=
  if lossDrops st g r.job = true then { r with job := .discard r.job.portClass } else discarded (isMarkJobOf st) r

theorem discarded_drops (r : PortRequest) :
    discarded (lossDrops st g) (discarded (isMarkJobOf st) r) = lossDiscarded st g r := by
  rw [lossDiscarded]
  have same := (discarded_mark_same (st := st) (g := g) r).2
  by_cases drops : lossDrops st g r.job = true
  · have unmarked : ¬ isMarkJobOf st r.job = true := fun mark => by
      rw [(mark_exclusive (g := g) mark).2] at drops
      cases drops
    rw [if_pos drops, discarded, discarded, if_neg unmarked, if_pos drops, ownerless_of_drops drops]
  · rw [if_neg drops, discarded, same, if_neg drops]

end

/-! ## The loss, part by part -/

section
variable {st : StreamNo} {cause : Cause} {broken : Bool} {sequence address : Nat} {d f : Device}

/-- The stream's own record when the loss is over. -/
theorem offeredRecord_eq {x : Stream} (unmarked : x.pendingMark = none) : offeredRecord x = { x with
    next := .absent, extensionLink := none, entering := false, freed := []
    anchorOutstanding := x.anchorOutstanding.map fun w => { w with occasions := w.occasions.filter (· == .check) }
    invalidation := .waiting
    anchorWaiting := some ⟨[.loss (x.epoch.getD 0)], some (x.anchorAddress, {
      stamp := x.stamp, cleanDetach := false, invalidated := true, rollbackPending := false, target := 0
      epoch := x.epoch.getD 0, nextSequence := x.committed.getD 0 + 1, marks := []
      history := x.history.filter fun h => decide (h.first ≤ x.committed.getD 0 + 1)
      policy := x.policy, stallLimit := x.stallLimit })⟩ } := by
  rw [offeredRecord, freezeInvalidation_eq]
  dsimp only
  rw [if_pos unmarked, Nat.sub_zero]

theorem loseStream_stages (st : StreamNo) (cause : Cause) (broken : Bool) (sequence address : Nat) (d : Device) :
    ∃ f e, Degraded st cause broken sequence address d f ∧ e = loseCaptures st f
      ∧ loseStream st cause broken sequence address d = engineFails st (invalidationOffered st e) :=
  ⟨_, _, degraded_lossTold .., rfl, loseStream_eq ..⟩

theorem loseStream_stream (st : StreamNo) (cause : Cause) (broken : Bool) (sequence address : Nat) (d : Device) :
    ∃ p, (loseStream st cause broken sequence address d).streams.get st = offeredRecord {
      lossRecord cause broken (d.streams.get st) with
        operation := none, extension := none, positions := p, saturated := false } := by
  obtain ⟨f, e, degraded, captured, lost⟩ := loseStream_stages st cause broken sequence address d
  obtain ⟨p, stream⟩ := loseCaptures_stream st f
  rw [← captured] at stream
  rw [lost, lossEnded_eq]
  refine ⟨p, (Table.get_set ..).trans ?_⟩
  rw [stream, degraded.stream]

theorem loseStream_reports (st : StreamNo) (cause : Cause) (broken : Bool) (sequence address : Nat) (d : Device) :
    d.report.queue ++ lossReports st cause sequence address d <+:
      (loseStream st cause broken sequence address d).report.queue := by
  obtain ⟨f, e, degraded, captured, lost⟩ := loseStream_stages st cause broken sequence address d
  have kept := (loseCaptures_kept (.refl f) st).reports
  rw [← captured] at kept
  rw [lost, lossEnded_eq, ← degraded.reports]
  exact kept

/-! ### Regions and their counts -/

theorem answersTo_congr (same : f.path.requests = d.path.requests) (r : RegionNo) (counts : RequestState → Bool)
    (a : List (ReqTag × Response)) : answersTo f r counts a = answersTo d r counts a := by
  have each : answersOf f r counts = answersOf d r counts := funext fun p => by rw [answersOf, answersOf, same]
  rw [answersTo, each, answersTo]

/-- A region of a stream that is lost, with its new count; `served` tells whether the engine serves the stream. -/
def lostRegion (st : StreamNo) (served : Bool) (n : Nat) (e : Region) : Region :=
  let e' := { if e.stream = some st then degradedRegion e else e with admitted := n }
  if served = true ∧ e.stream = some st then { e' with resume := none } else e'

theorem degradedRegion_admitted (e : Region) : (degradedRegion e).admitted = e.admitted := by
  rw [degradedRegion]
  split <;> rfl

theorem degradedRegion_stream (e : Region) : (degradedRegion e).stream = e.stream := by
  rw [degradedRegion]
  split <;> rfl

theorem Degraded.region_admitted (degraded : Degraded st cause broken sequence address d f) (r : RegionNo) :
    (f.regions.get r).admitted = (d.regions.get r).admitted := by
  rw [degraded.regions]
  split
  · exact degradedRegion_admitted _
  · rfl

theorem Degraded.region_stream (degraded : Degraded st cause broken sequence address d f) (r : RegionNo) :
    (f.regions.get r).stream = (d.regions.get r).stream := by
  rw [degraded.regions]
  split
  · exact degradedRegion_stream _
  · rfl

/-- The count of a region falls by the answers given to its requests. -/
theorem loseStream_region (st : StreamNo) (cause : Cause) (broken : Bool) (sequence address : Nat) (d : Device) (r : RegionNo) :
    ∃ n, let answers := (loseStream st cause broken sequence address d).responses.drop d.responses.length
      (d.regions.get r).admitted - answersTo d r (fun _ => true) answers ≤ n
      ∧ n ≤ (d.regions.get r).admitted - answersTo d r (· != .waitMode) answers
      ∧ (loseStream st cause broken sequence address d).regions.get r =
        lostRegion st (d.engine.owner == some st) n (d.regions.get r) := by
  obtain ⟨f, e, degraded, captured, lost⟩ := loseStream_stages st cause broken sequence address d
  obtain ⟨a, answered⟩ := loseCaptures_answered st f
  obtain ⟨n, region⟩ := loseCaptures_region st f r
  have kept := (loseCaptures_kept (.refl f) st).engine
  rw [← captured] at answered region kept
  have answers : e.responses.drop d.responses.length = a := by
    rw [answered.responses, degraded.responses, List.drop_left]
  have low := answered.low r
  have high := answered.high r
  rw [region, degraded.region_admitted, answersTo_congr degraded.requests] at low high
  have engine : e.engine = d.engine := kept.trans degraded.engine
  rw [lost, lossEnded_eq]
  refine ⟨n, ?_⟩
  dsimp only
  rw [answers]
  refine ⟨low, high, ?_⟩
  rw [engine]
  have stream := degraded.region_stream r
  rw [degraded.regions] at region stream
  by_cases served : d.engine.owner = some st
  · rw [if_pos served, Table.get_map, region, lostRegion, served, beq_self_eq_true]
    simp only [true_and, stream]
  · rw [if_neg served, region, lostRegion, beq_eq_false_iff_ne.mpr served]
    exact (if_neg fun both => Bool.false_ne_true both.1).symm

/-! ### The filter and the slots -/

theorem loseStream_filter (st : StreamNo) (cause : Cause) (broken : Bool) (sequence address : Nat) (d : Device) :
    (∀ e ∈ (loseStream st cause broken sequence address d).capture.filter, (d.regions.get e.region).stream ≠ some st)
    ∧ ∀ e ∈ d.capture.filter, (d.regions.get e.region).stream ≠ some st → e.state = .captured →
      e ∈ (loseStream st cause broken sequence address d).capture.filter := by
  obtain ⟨f, e, degraded, captured, lost⟩ := loseStream_stages st cause broken sequence address d
  have filter := loseCaptures_filter st f
  rw [← captured] at filter
  obtain ⟨gone, stay⟩ := filter
  rw [lost, lossEnded_eq]
  refine ⟨fun x mem => degraded.region_stream x.region ▸ gone x mem, fun x mem other named => ?_⟩
  exact stay x (degraded.filter x mem other) (degraded.region_stream x.region ▸ other) named

theorem mark_not_capture {r : PortRequest} {k : SlotNo} :
    (discarded (isMarkJobOf st) r).job = .capture k ↔ r.job = .capture k := by
  by_cases mark : isMarkJobOf st r.job = true
  · rw [discarded, if_pos mark]
    have before := (mark_exclusive (g := Engine.cold) mark).1
    have after := (ownerless_exclusive (st := st) (g := Engine.cold) r.job).1
    constructor
    · intro same
      rw [show r.job.ownerless = .capture k from same] at after
      cases after
    · intro same
      rw [same] at before
      cases before
  · rw [discarded, if_neg mark]

theorem Degraded.captureIssued (degraded : Degraded st cause broken sequence address d f) (k : SlotNo) :
    Machine.captureIssued f k = true ↔ ∃ i ∈ d.arbiter.issued, i.request.job = .capture k := by
  simp only [captureIssued_iff, degraded.issued, List.mem_map, exists_exists_and_eq_and, mark_not_capture]

/-- No write outside the stream waits for a slot, or none can be given one. -/
theorem Degraded.quiet (degraded : Degraded st cause broken sequence address d f) (quiet : d.check.state ≠ .normal
      ∨ ∀ g ∈ d.capture.queue, ∀ q, d.path.requests.get g = some q → q.stream = some st) : Quiet (leaveSlotQueue st f) := by
  refine quiet.imp (fun handled => ?_) fun own => ?_
  · show f.check.state ≠ .normal
    rwa [degraded.check]
  · refine List.filter_eq_nil_iff.mpr fun g mem stays => ?_
    rw [degraded.queue] at mem
    rw [degraded.requests] at stays
    cases entry : d.path.requests.get g with
    | none => simp [entry] at stays
    | some q => simp [entry, own g mem q entry] at stays

/-- A slot of the stream whose loss is new ends as `lostSlot` has it. -/
theorem loseStream_slot (cause : Cause) (broken : Bool) (sequence address : Nat) {k : SlotNo} {c : Slot}
    (quiet : d.check.state ≠ .normal ∨ ∀ g ∈ d.capture.queue, ∀ q, d.path.requests.get g = some q → q.stream = some st)
    (slot : d.capture.slots.get k = some c) (stream : c.stream = st) (held : c.lost = false) : ∃ issued,
      (issued = true ↔ ∃ i ∈ d.arbiter.issued, i.request.job = .capture k)
      ∧ SlotSince (lostSlot issued c) ((loseStream st cause broken sequence address d).capture.slots.get k) := by
  obtain ⟨f, e, degraded, captured, lost⟩ := loseStream_stages st cause broken sequence address d
  refine ⟨captureIssued f k, degraded.captureIssued k, ?_⟩
  have left : SlotSince (lostSlot (captureIssued f k) c) ((loseCaptures st f).capture.slots.get k) := by
    have since := degraded.slots k
    rw [slot] at since
    rcases since with same | same
    · exact loseCaptures_slot (degraded.quiet quiet) same stream held
    · exact (lostSlot_unlinked ..).trans (loseCaptures_slot (degraded.quiet quiet) same stream held)
  rw [← captured] at left
  rw [lost, lossEnded_eq]
  exact left

end

end Sys2Proof.Proofs

/-! PROOF. Stream loss on the memory port and upstream, and the stall limit (R33, R56, R77, R78). Statement
`Obligations.StallLimitExpires`. -/
namespace Sys2Proof.Proofs
open Sys2Proof Sys2Proof.Machine

section
variable {st : StreamNo} {cause : Cause} {broken : Bool} {sequence address : Nat} {d f : Device}

/-! ## The engine, the Arbiter and the line queues -/

theorem loseStream_engine (st : StreamNo) (cause : Cause) (broken : Bool) (sequence address : Nat) (d : Device) :
    (loseStream st cause broken sequence address d).engine =
      if (d.engine.owner == some st) = true then { Engine.cold with claims := d.engine.claims } else d.engine := by
  obtain ⟨f, e, degraded, captured, lost⟩ := loseStream_stages st cause broken sequence address d
  have kept := (loseCaptures_kept (.refl f) st).engine
  rw [← captured, degraded.engine] at kept
  rw [lost, lossEnded_eq]
  dsimp only
  rw [kept]
  exact if_congr beq_iff_eq.symm rfl rfl

theorem loseStream_issued (st : StreamNo) (cause : Cause) (broken : Bool) (sequence address : Nat) (d : Device) :
    (loseStream st cause broken sequence address d).arbiter.issued = d.arbiter.issued.map fun i =>
      { i with request := lossDiscarded st d.engine i.request } := by
  obtain ⟨f, e, degraded, captured, lost⟩ := loseStream_stages st cause broken sequence address d
  have kept := (loseCaptures_kept (.refl f) st).engine
  have issued := loseCaptures_issued st f
  rw [← captured] at kept issued
  rw [lost, (lossEnded_dropped st e).issued, issued, degraded.issued, kept, degraded.engine, List.map_map]
  exact List.map_congr_left fun i _ => congrArg (fun r => { i with request := r }) (discarded_drops i.request)

theorem loseStream_waiting (st : StreamNo) (cause : Cause) (broken : Bool) (sequence address : Nat) (d : Device) :
    (loseStream st cause broken sequence address d).arbiter.waiting.filter (fun r => !Job.isCapture r.job) =
      (d.arbiter.waiting.filter fun r => !Job.isCapture r.job && !lossDrops st d.engine r.job).map
        (discarded (isMarkJobOf st)) := by
  obtain ⟨f, e, degraded, captured, lost⟩ := loseStream_stages st cause broken sequence address d
  have kept := (loseCaptures_kept (.refl f) st).engine
  have waiting := loseCaptures_waiting st f
  rw [← captured] at kept waiting
  have same : (fun r => !Job.isCapture r.job && !lossDrops st d.engine r.job) =
      ((fun r => !lossDrops st d.engine r.job && !Job.isCapture r.job) ∘ discarded (isMarkJobOf st)) := funext fun r => by
    obtain ⟨capture, drops⟩ := discarded_mark_same (st := st) (g := d.engine) r
    rw [Function.comp_apply, capture, drops, Bool.and_comm]
  rw [lost, (lossEnded_dropped st e).waiting, kept, degraded.engine, List.filter_filter]
  calc e.arbiter.waiting.filter (fun r => !Job.isCapture r.job && !lossDrops st d.engine r.job)
    _ = (e.arbiter.waiting.filter fun r => !Job.isCapture r.job).filter fun r => !lossDrops st d.engine r.job := by
      rw [List.filter_filter]
      exact List.filter_congr fun r _ => Bool.and_comm ..
    _ = (d.arbiter.waiting.map (discarded (isMarkJobOf st))).filter fun r =>
          !lossDrops st d.engine r.job && !Job.isCapture r.job := by
      rw [waiting, degraded.waiting, List.filter_filter]
    _ = _ := by rw [List.filter_map, same]

/-- The requests in line queues that the loss names are gone; the others wait on. -/
theorem loseStream_askers (st : StreamNo) (cause : Cause) (broken : Bool) (sequence address : Nat) (d : Device) :
    (∀ l ∈ (loseStream st cause broken sequence address d).path.locks, ∀ r, Asker.own r ∈ l.queue →
      lossDrops st d.engine r.job = false ∧ isMarkJobOf st r.job = false)
    ∧ ∀ l ∈ d.path.locks, ∀ r, Asker.own r ∈ l.queue → lossDrops st d.engine r.job = false → Job.isCapture r.job = false →
      ∃ m ∈ (loseStream st cause broken sequence address d).path.locks, m.line = l.line
        ∧ .own (discarded (isMarkJobOf st) r) ∈ m.queue := by
  obtain ⟨f, e, degraded, captured, lost⟩ := loseStream_stages st cause broken sequence address d
  have kept := (loseCaptures_kept (.refl f) st).engine
  have askers := loseCaptures_askers st f
  rw [← captured] at kept askers
  have dropped := lossEnded_dropped st e
  rw [kept, degraded.engine] at dropped
  have unmarked : Unasked (isMarkJobOf st) f := fun l mem r waits => by
    rw [degraded.locks] at mem
    obtain ⟨m, -, rfl⟩ := List.mem_map.mp mem
    obtain ⟨a, -, same⟩ := List.mem_map.mp waits
    cases a with
    | upstream t w => cases same
    | own r' =>
      cases same
      exact discarded_unmarked r'
  rw [lost]
  refine ⟨fun l mem r waits => ⟨dropped.unasked l mem r waits, (unmarked.back askers).back dropped.askers l mem r waits⟩,
    fun l mem r waits undropped uncaptured => ?_⟩
  obtain ⟨capture, drops⟩ := discarded_mark_same (st := st) (g := d.engine) r
  have mem_f : { l with queue := l.queue.map (discardedAsker (isMarkJobOf st)) } ∈ f.path.locks := by
    rw [degraded.locks]
    exact List.mem_map_of_mem mem
  obtain ⟨m, mem_m, line_m, waits_m⟩ :=
    askers.forth _ mem_f (discarded (isMarkJobOf st) r) (List.mem_map_of_mem waits) (capture.trans uncaptured)
  obtain ⟨m', mem_m', line_m', waits_m'⟩ := dropped.askers.forth m mem_m _ waits_m (drops.trans undropped)
  exact ⟨m', mem_m', line_m'.trans line_m, waits_m'⟩

/-! ## Held writes -/

/-- A held write's slot is of the phase that it had before the loss was told. -/
theorem Degraded.heldBy (degraded : Degraded st cause broken sequence address d f) {g : ReqTag} (held : HeldBy st d g) :
    HeldBy st f g := by
  refine held.congr (by rw [degraded.requests]) fun k => ?_
  rw [ownedPhase, ownedPhase]
  rcases degraded.slots k with same | same <;> rw [same]
  cases d.capture.slots.get k <;> rfl

/-- Every write that the loss finds held is answered RETRY, in ascending tag. -/
theorem loseStream_held (cause : Cause) (broken : Bool) (sequence address : Nat) {held : List ReqTag}
    (ascending : held.Pairwise (· < ·)) (waits : ∀ g ∈ held, HeldBy st d g) :
    (∀ g ∈ held, (loseStream st cause broken sequence address d).path.requests.get g = none)
    ∧ (held.map fun g => (g, Response.retry)).Sublist
      ((loseStream st cause broken sequence address d).responses.drop d.responses.length) := by
  obtain ⟨f, e, degraded, captured, lost⟩ := loseStream_stages st cause broken sequence address d
  obtain ⟨a, answers, ordered, gone⟩ := loseCaptures_held (d := f) ascending fun g mem => degraded.heldBy (waits g mem)
  rw [← captured] at answers gone
  rw [lost, lossEnded_eq]
  dsimp only
  rw [answers, degraded.responses, List.drop_left]
  exact ⟨gone, ordered⟩

/-! ## The statement's own words -/

/-- The reports by the COMMAND_DONE of an operation and of an extension. -/
theorem loseStream_told {ended : Operation → Report} {extended : Extension → Report}
    (ends : ended = fun o => { failedDone d.engine o cause sequence address with stream := st.1 })
    (extends_ : extended = extensionFailed st cause) :
    d.report.queue ++ (if d.report.queue.length < 16 then [lostReport st cause (d.streams.get st)] else [])
      ++ ((d.streams.get st).operation.map ended).toList ++ ((d.streams.get st).extension.map extended).toList <+:
      (loseStream st cause broken sequence address d).report.queue := by
  subst ends extends_
  have reports := loseStream_reports st cause broken sequence address d
  rwa [lossReports, failedReports, ← List.append_assoc, ← List.append_assoc] at reports

theorem discarded_mark_eq (r : PortRequest) : discarded (isMarkJobOf st) r =
    if isMarkJobOf st r.job = true then { r with job := .discard .c2 } else r := by
  obtain ⟨job, line, write, mask, data⟩ := r
  cases job <;> rfl

theorem lostRegion_degraded {n : Nat} {e : Region} (bound : e.stream = some st) (journal : e.effective = .journal) (g : Engine) :
    lostRegion st (g.owner == some st) n e = { e with
      effective := .hold, degrading := true, admitted := n
      resume := if g.owner = some st then none else e.resume } := by
  rw [lostRegion, if_pos bound, degradedRegion, if_pos journal]
  by_cases served : g.owner = some st <;> simp [served, bound]

theorem lostRegion_kept {n : Nat} {e : Region} (kept : ¬ (e.stream = some st ∧ e.effective = .journal)) (g : Engine) :
    lostRegion st (g.owner == some st) n e = { e with
      admitted := n
      resume := if g.owner = some st ∧ e.stream = some st then none else e.resume } := by
  have same : (if e.stream = some st then degradedRegion e else e) = e := by
    split
    next bound => exact if_neg fun journal => kept ⟨bound, journal⟩
    next => rfl
  rw [lostRegion, same]
  by_cases both : g.owner = some st ∧ e.stream = some st <;> simp [both]

theorem SlotSince.empty {o : Option Slot} (since : SlotSince none o) : o = none := by
  rcases since with same | same <;> exact same

/-- A slot that was not empty is what it was, but perhaps for its link. -/
theorem SlotSince.some {c : Slot} {o : Option Slot} (since : SlotSince (some c) o) :
    ∃ linked, o = some { c with linked := linked } := by
  rcases since with rfl | rfl
  · exact ⟨c.linked, rfl⟩
  · exact ⟨false, rfl⟩

/-- What becomes of a slot of the stream, phase by phase. -/
theorem lostSlot_outcome {issued : Bool} {reading : Prop} {c : Slot} {o : Option Slot} (stream : c.stream = st)
    (issues : issued = true ↔ reading) (since : SlotSince (lostSlot issued c) o) :
    ((c.phase = .done ∨ c.phase = .waitingPosition ∨ (c.phase = .reading ∧ ¬ reading)) → o = none)
    ∧ (c.phase = .reading → reading → ∃ y, o = some y ∧ y.phase = .cancelled ∧ y.owner = none
      ∧ y.linked = false ∧ y.stream = st ∧ y.line = c.line)
    ∧ (c.phase = .writing → c.linesAnswered < 2 → ∃ y, o = some y ∧ y.phase = .writing
      ∧ y.owner = none ∧ y.lost = true ∧ y.linesAnswered = c.linesAnswered ∧ y.linesWritten = c.linesWritten
      ∧ y.sequence = c.sequence ∧ y.stream = st ∧ y.line = c.line) := by
  refine ⟨fun freed => ?_, fun phase read => ?_, fun phase open_ => ?_⟩
  · have empty : lostSlot issued c = none := by
      rcases freed with phase | phase | ⟨phase, unread⟩
      · simp only [lostSlot, phase]
      · simp only [lostSlot, phase]
      · simp only [lostSlot, phase, if_neg (mt issues.mp unread)]
    rw [empty] at since
    exact since.empty
  · have cancelled : lostSlot issued c = some { c with owner := none, linked := false, phase := .cancelled } := by
      simp only [lostSlot, phase, if_pos (issues.mpr read)]
    rw [cancelled] at since
    rcases since with same | same <;> exact ⟨_, same, rfl, rfl, rfl, stream, rfl⟩
  · have unanswered : c.linesAnswered ≠ 2 := Nat.ne_of_lt open_
    have lost : lostSlot issued c = some { c with owner := none, lost := true } := by
      simp only [lostSlot, phase, if_neg unanswered]
    rw [lost] at since
    obtain ⟨linked, same⟩ := since.some
    exact ⟨_, same, phase, rfl, rfl, rfl, rfl, rfl, stream, rfl⟩

/-- The engine, the Arbiter and the line queues, by what the statement calls a capture read, a MARK record's line and a request
that is dropped. -/
theorem loseStream_port {serves : Bool} {capture mark dropped : Job → Bool} {unmarked : PortRequest → PortRequest}
    (serves_ : serves = (d.engine.owner == some st)) (captures : capture = Job.isCapture) (marks : mark = isMarkJobOf st)
    (drops : dropped = lossDrops st d.engine) (unmarks : unmarked = discarded (isMarkJobOf st)) :
    let t := loseStream st cause broken sequence address d
    t.engine = (if serves = true then { Engine.cold with claims := d.engine.claims } else d.engine)
    ∧ t.arbiter.issued = d.arbiter.issued.map (fun i =>
      { i with request := if dropped i.request.job = true then { i.request with job := .discard i.request.job.portClass }
                          else unmarked i.request })
    ∧ t.arbiter.waiting.filter (fun r => !capture r.job) =
      (d.arbiter.waiting.filter fun r => !capture r.job && !dropped r.job).map unmarked
    ∧ (∀ l ∈ t.path.locks, ∀ r, Asker.own r ∈ l.queue → dropped r.job = false ∧ mark r.job = false)
    ∧ ∀ l ∈ d.path.locks, ∀ r, Asker.own r ∈ l.queue → dropped r.job = false → capture r.job = false →
      ∃ m ∈ t.path.locks, m.line = l.line ∧ .own (unmarked r) ∈ m.queue := by
  subst serves_ captures marks drops unmarks
  obtain ⟨gone, wait⟩ := loseStream_askers st cause broken sequence address d
  exact ⟨loseStream_engine .., loseStream_issued .., loseStream_waiting .., gone, wait⟩

/-! ## The stall limit (R72) -/

theorem tryStallLimitExpiry_lost {start k : Nat} (state : (d.streams.get st).state = .exhausted)
    (running : (d.streams.get st).stallStart = some start) (limit : (d.streams.get st).stallLimit = some k) :
    tryStallLimitExpiry st d = some (loseStream st .stallLimit true 0 0 { d with now := max d.now (start + 2 ^ k * 1000) }) := by
  simp only [tryStallLimitExpiry, state, running, limit]
  rfl

theorem tryStallLimitExpiry_idle (idle : (d.streams.get st).state ≠ .exhausted ∨ (d.streams.get st).stallLimit = none) :
    tryStallLimitExpiry st d = none := by
  simp only [tryStallLimitExpiry]
  split
  next state _ limit => exact (idle.elim (absurd state) fun none_limit => by rw [none_limit] at limit; cases limit)
  next => rfl

end

/-- Settles O26: the timer's two cases, then the loss part by part. -/
theorem stallLimitExpires : Obligations.StallLimitExpires := by
  unfold Obligations.StallLimitExpires
  refine ⟨fun s st => ⟨fun start k state running limit => ?_, fun idle => ?_⟩, fun st cause broken sequence address d => ?_⟩
  · exact (exec_stallLimitExpiry st s).trans (innerEvent_done (tryStallLimitExpiry_lost state running limit))
  · exact (exec_stallLimitExpiry st s).trans (innerEvent_idle (tryStallLimitExpiry_idle idle))
  obtain ⟨p, stream⟩ := loseStream_stream st cause broken sequence address d
  rw [offeredRecord_eq rfl] at stream
  refine ⟨?_, ?_, fun r => ?_, loseStream_filter .., fun quiet k c slot own held => ?_, ?_, fun held ascending waits => ?_⟩
  · rw [stream]
    exact ⟨rfl, rfl, rfl, rfl, rfl, rfl, rfl, rfl, rfl, rfl, rfl, rfl, rfl, rfl, rfl, rfl, rfl, rfl, rfl, rfl, rfl, rfl,
      rfl, rfl⟩
  · refine loseStream_told (funext fun o => ?_) (funext fun e => rfl)
    cases kind : o.kind <;> simp only [failedDone, kind]
  · obtain ⟨n, low, high, region⟩ := loseStream_region st cause broken sequence address d r
    exact ⟨n, low, high, fun ⟨bound, journal⟩ => region.trans (lostRegion_degraded bound journal d.engine),
      fun kept => region.trans (lostRegion_kept kept d.engine)⟩
  · obtain ⟨issued, issues, since⟩ := loseStream_slot cause broken sequence address quiet slot own held
    exact lostSlot_outcome own issues since
  · intro serves capture mark dropped unmarked
    have captures : capture = Job.isCapture := funext fun j => by cases j <;> rfl
    have marks : mark = isMarkJobOf st := funext fun j => by cases j <;> rfl
    have drops : dropped = lossDrops st d.engine := funext fun j => by
      cases j <;> simp [dropped, serves, lossDrops, isChainJobOf, isEngineJob]
    have unmarks : unmarked = discarded (isMarkJobOf st) := funext fun r => by
      simp only [unmarked, marks]
      exact (discarded_mark_eq r).symm
    obtain ⟨engine, issued, waiting, gone, wait⟩ := loseStream_port (cause := cause) (broken := broken) (sequence := sequence)
      (address := address) (serves := serves) rfl captures marks drops unmarks
    exact ⟨engine, issued, waiting, gone, wait, by rw [stream]; rfl⟩
  · exact loseStream_held cause broken sequence address ascending waits

end Sys2Proof.Proofs
